-- ==== Sys2Proof/Word.lean ====
section
/-! DEFINITION. Word.lean: the widths of the codec's quantities (spec/00_scope.md R7, spec/10_state.md R11, R12, R15,
R16). The spec reads all arithmetic over the integers (R5) and gives registers the widths below (decision D5); a
register is read as an integer (`toInt`) and written back by `BitVec.ofInt`. -/

namespace Sys2Proof

/-- A sample, or one byte of IN or OUT: unsigned 8 bits (R7, R29). -/
abbrev Byte := BitVec 8

/-- CODE4, one quantised delta: sign bit 3 and magnitude bits 2, 1, 0 (R46). -/
abbrev Code := BitVec 4

/-- The PRED register: 11 bits, two's complement (R11, `PRED_W`). -/
abbrev PredReg := BitVec 11

/-- The SIDX register: 7 bits, two's complement (R12, `SIDX_W`). -/
abbrev SidxReg := BitVec 7

/-- A word of STEP_ROM: 9 bits, unsigned (R59, `STEP_W`). -/
abbrev StepWord := BitVec 9

/-- A word of IDX_ROM: 5 bits, two's complement (R60, `IDXD_W`). -/
abbrev IdxWord := BitVec 5

/-- The command opcode field: 3 bits (R53, `OP_W`). -/
abbrev OpField := BitVec 3

end Sys2Proof
end

