-- ==== Sys2Proof/Config.lean ====
section
/-! DEFINITION. Config.lean: the values the spec leaves to a model. `LEN_W` and `OUT_CAP` are OPEN parameters (R7,
decisions D4, D14): the machine holds them in its state, so that every statement about a state holds for every value
of them, and only their values right after reset are named here. -/

namespace Sys2Proof.Config

/-- `LEN_W`, the width of the count argument, right after reset: the value the spec suggests (R7 table, D4).
DESIGN CHOICE, log entry 1. -/
def resetLenW : Nat := 32

/-- `OUT_CAP` right after reset: the whole OUT index space, `LEN_W + 1` bits of index (R25). The spec's programs take
`OUT_CAP` large enough unless they say otherwise (spec/95_test_vectors.md section 5). DESIGN CHOICE, log entry 2. -/
def resetOutCap : Nat := 2 ^ (resetLenW + 1)

/-- What a byte of IN or OUT that nobody has written reads as. The spec gives the host's memory no initial contents
(R27, R103). DESIGN CHOICE, unsafe, log entry 3. -/
def unwrittenByte : Byte := 0

end Sys2Proof.Config
end

