-- ==== Sys2Proof/Syntax.lean ====
section
/-! DEFINITION. Syntax.lean: what can be presented to the core, and the one inductive of its instructions, one
constructor for each row of spec/opcode_table.json (R57: five rows of format CMD, sixteen of format CODE4). -/

namespace Sys2Proof

/-- What arrives at the core: a command, which is a pair (`op`, `arg`) of plain binary numbers (R53), or a 4-bit code
(R46). `arg` is a natural number here; that it fits `LEN_W` bits is checked by the decoder. -/
inductive CommandWord where
  /-- Format CMD: `op` of 3 bits and `arg` of `LEN_W` bits (R53). -/
  | cmd (op : OpField) (arg : Nat)
  /-- Format CODE4: one 4-bit code for the sample decoder (R46). Log entry 5. -/
  | code4 (c : Code)
deriving DecidableEq, Repr

/-- The instructions: one constructor per row of spec/opcode_table.json. -/
inductive Instr where
  /-- `INIT s`: seed the state with the first sample (R67). -/
  | init (s : Byte)
  /-- `ENCS s`: encode one sample (R68). -/
  | encs (s : Byte)
  /-- `DECS c`: decode one code (R69). -/
  | decs (c : Code)
  /-- `ENC N`: encode the N samples of IN (R73). -/
  | enc (n : Nat)
  /-- `DEC M`: decode the M bytes of IN (R75). -/
  | dec (m : Nat)
  | code0
  | code1
  | code2
  | code3
  | code4
  | code5
  | code6
  | code7
  | code8
  | code9
  | code10
  | code11
  | code12
  | code13
  | code14
  | code15
deriving DecidableEq, Repr

end Sys2Proof
end

