-- ==== Sys2Proof/WellFormed.lean ====
section
/-! DEFINITION. WellFormed.lean: which instructions the command interface can carry. The argument of a command is
`LEN_W` bits wide (R53), so a count N or M is below `2 ^ LEN_W` (R73, R75; spec/93_implementation_defined.md U8), and
so is a sample or code carried in `arg`. That a sample has 8 bits and a code 4 is their type (R55 (d)). -/

namespace Sys2Proof

/-- The instruction can be written as a command of an interface whose `arg` has `lenW` bits (R53). A CODE4 row has no
argument. -/
def Instr.wellFormed (lenW : Nat) : Instr → Bool
  | .init s => s.toNat < 2 ^ lenW
  | .encs s => s.toNat < 2 ^ lenW
  | .decs c => c.toNat < 2 ^ lenW
  | .enc n => n < 2 ^ lenW
  | .dec m => m < 2 ^ lenW
  | .code0 => true
  | .code1 => true
  | .code2 => true
  | .code3 => true
  | .code4 => true
  | .code5 => true
  | .code6 => true
  | .code7 => true
  | .code8 => true
  | .code9 => true
  | .code10 => true
  | .code11 => true
  | .code12 => true
  | .code13 => true
  | .code14 => true
  | .code15 => true

end Sys2Proof
end

