-- ==== Sys2Proof/Decode.lean ====
section
/-! DEFINITION. Decode.lean: from a command word to an instruction, total and rejecting by name, and the encoder
written from the same tables (R53 for CMD, R46 and the CODE4 rows of spec/opcode_table.json for codes). -/

namespace Sys2Proof

/-- Why a command word is no instruction. -/
inductive DecodeError where
  /-- `op` is 5, 6 or 7 (R55 (c)). -/
  | reservedOp (op : OpField)
  /-- An `arg` bit above bit 7 of INIT or ENCS, or above bit 3 of DECS, is set (R48, R55 (d)). -/
  | operandTooWide
  /-- `arg` has more than `LEN_W` bits: no such command can be presented (R53, U8). -/
  | argTooWide
deriving DecidableEq, Repr

/-- The CODE4 row of a code, by its bits `s`, `m2`, `m1`, `m0` (R46; spec/opcode_table.json `encoding`). -/
def decodeCode (c : Code) : Instr :=
  match c.getLsbD 3, c.getLsbD 2, c.getLsbD 1, c.getLsbD 0 with
  | false, false, false, false => .code0
  | false, false, false, true => .code1
  | false, false, true, false => .code2
  | false, false, true, true => .code3
  | false, true, false, false => .code4
  | false, true, false, true => .code5
  | false, true, true, false => .code6
  | false, true, true, true => .code7
  | true, false, false, false => .code8
  | true, false, false, true => .code9
  | true, false, true, false => .code10
  | true, false, true, true => .code11
  | true, true, false, false => .code12
  | true, true, false, true => .code13
  | true, true, true, false => .code14
  | true, true, true, true => .code15

/-- A command's `op` and `arg` (table of R53; R55 for what is rejected). -/
def decodeCmd (op : OpField) (arg : Nat) : Except DecodeError Instr :=
  if op = 0b000#3 then
    if arg < 256 then .ok (.init (BitVec.ofNat 8 arg)) else .error .operandTooWide
  else if op = 0b001#3 then
    if arg < 256 then .ok (.encs (BitVec.ofNat 8 arg)) else .error .operandTooWide
  else if op = 0b010#3 then
    if arg < 16 then .ok (.decs (BitVec.ofNat 4 arg)) else .error .operandTooWide
  else if op = 0b011#3 then .ok (.enc arg)
  else if op = 0b100#3 then .ok (.dec arg)
  else .error (.reservedOp op)

/-- The decoder of a core whose `arg` is `lenW` bits wide. A reserved `op` and an operand with a bit set too high are
rejected before the width of `arg` is looked at (log entry 15). Below 8 bits an operand of INIT, ENCS or DECS that `arg`
cannot carry is rejected too: the spec gives `LEN_W` no lower bound, DESIGN CHOICE, log entry 21. -/
def decode (lenW : Nat) : CommandWord → Except DecodeError Instr
  | .code4 c => .ok (decodeCode c)
  | .cmd op arg =>
    match decodeCmd op arg with
    | .error e => .error e
    | .ok i => if arg < 2 ^ lenW then .ok i else .error .argTooWide

/-- The words of an instruction (table of R53; the CODE4 rows of spec/opcode_table.json). -/
def encode : Instr → CommandWord
  | .init s => .cmd 0b000#3 s.toNat
  | .encs s => .cmd 0b001#3 s.toNat
  | .decs c => .cmd 0b010#3 c.toNat
  | .enc n => .cmd 0b011#3 n
  | .dec m => .cmd 0b100#3 m
  | .code0 => .code4 0b0000#4
  | .code1 => .code4 0b0001#4
  | .code2 => .code4 0b0010#4
  | .code3 => .code4 0b0011#4
  | .code4 => .code4 0b0100#4
  | .code5 => .code4 0b0101#4
  | .code6 => .code4 0b0110#4
  | .code7 => .code4 0b0111#4
  | .code8 => .code4 0b1000#4
  | .code9 => .code4 0b1001#4
  | .code10 => .code4 0b1010#4
  | .code11 => .code4 0b1011#4
  | .code12 => .code4 0b1100#4
  | .code13 => .code4 0b1101#4
  | .code14 => .code4 0b1110#4
  | .code15 => .code4 0b1111#4

/-- The command word that a word of spec/opcode_table.json's numbering stands for. CMD: `op` is bits 2:0 (the table's
match and mask), `arg` stands above it. CODE4: the code is bits 3:0. The table numbers the two formats separately, so
a word of whole bytes may belong to a row of each: `nbits` 3 or less means CMD and 4 means CODE4; otherwise a word
below 16 with bit 3 set or with no assigned `op` is a CODE4, and every other word a CMD. Log entry 6. -/
def tableWord (nbits w : Nat) : CommandWord :=
  if nbits = 4 then .code4 (BitVec.ofNat 4 w)
  else if 4 < nbits ∧ 5 ≤ w ∧ w < 16 then .code4 (BitVec.ofNat 4 w)
  else .cmd (BitVec.ofNat 3 w) (w / 8)

/-- The instruction the decoder reads from a word of the table's numbering, at the reset value of `LEN_W`. -/
def decodeTableWord (nbits w : Nat) : Option Instr :=
  (decode Config.resetLenW (tableWord nbits w)).toOption

end Sys2Proof
end

