-- ==== Sys2Proof/Machine/State.lean ====
section
/-! DEFINITION. State.lean: the state of one core and of what stands around it, as plain data (spec/10_state.md R10:
PRED, SIDX, INITD, BUSY, PK_LO, PK_PH, UP_HI, UP_PH, CNT, IDX_I, IDX_O; R28: the command in progress; R25: the spaces
IN and OUT; R7: the parameters LEN_W and OUT_CAP), and the reasons a step can stop. The core raises no exception
(R92), so no register saves one and there is no program counter (R17), no mode (R98) and no flag (R18). -/

namespace Sys2Proof.Machine

/-- A byte space, IN or OUT: (index, byte) pairs with strictly rising indices and no entry equal to what an unlisted
index reads as (`Config.unwrittenByte`). -/
abbrev Memory := List Host.Cell

/-- Where the platform has put the two buffers (R37, R40). DEDUCED, log entry 12. -/
inductive Binding where
  /-- IN and OUT are two separate spaces (R29). -/
  | separate
  /-- Both buffers lie in one memory of the platform, IN from `inBase` and OUT from `outBase` (R37). -/
  | oneMemory (inBase outBase : Nat)
deriving DecidableEq, Repr

/-- What the host gives with a launch beside the command (R28): the bytes of OUT it has made writable (`OUT_CAP`, R7)
and the placement of the buffers. The core sees neither (R36, R40). -/
structure Launch where
  outCap : Nat
  binding : Binding
deriving DecidableEq, Repr

/-- The four fields of the STATE register group (table of R19). -/
inductive StateField where
  | pred
  | sidx
  | initd
  | busy
deriving DecidableEq, Repr

/-- What a host read returned: one field of STATE (R20) or one byte of OUT (R42). -/
inductive ReadValue where
  | pred (v : PredReg)
  | sidx (v : SidxReg)
  | initd (v : Bool)
  | busy (v : Bool)
  | outByte (v : Byte)
deriving DecidableEq, Repr

/-- One transaction of the host, or its leaving the core one micro-step (R6: the host may issue a command, read STATE,
fill IN and read OUT; R103: reset). -/
inductive HostAct where
  /-- Present a command and wait until its result has returned (R56). -/
  | run (l : Launch) (w : CommandWord)
  /-- Present a command and go on while the operation is in progress (R20, R106). -/
  | start (l : Launch) (w : CommandWord)
  /-- Nothing from the host: the core performs its next micro-step (R71). -/
  | core
  /-- Read one field through the state read port (R20). -/
  | readState (f : StateField)
  /-- Write one byte of IN (R29: the host fills IN). -/
  | writeIn (i : Nat) (b : Byte)
  /-- Read one byte of OUT (R42). -/
  | readOut (j : Nat)
  /-- The reset event (R103). -/
  | reset
deriving DecidableEq, Repr

/-- Where the result of an operation comes from when it completes. -/
inductive ResultSource where
  /-- A value known when the micro-step was scheduled: 0 of INIT and of a zero count, the code of ENCS. -/
  | value (v : Nat)
  /-- The committed predictor (DECS, R69). -/
  | pred
  /-- The number of OUT bytes written (ENC and DEC, R78). -/
  | idxO
deriving DecidableEq, Repr

/-- The micro-steps of an operation in progress (R71 for the sample step, INIT and the seed; R73 to R76 for the buffer
loops). Each boundary between two of them is a place where a host read may fall (R20). Which boundaries there are beside
those of R71 is DEDUCED, log entry 9. -/
inductive Micro where
  /-- `PRED <- s`, first micro-step of INIT and of a seed. -/
  | writePred (b : Byte)
  /-- `SIDX <- 0`, second micro-step of INIT and of a seed. -/
  | zeroSidx
  /-- `INITD <- 1`. -/
  | setInitd
  /-- Sample step of the encoder, micro-step 1: `PRED <- PRED ± delta`. With `toPacker` the code goes to the packer
  (ENC), otherwise it is the result (ENCS). -/
  | encSample (b : Byte) (toPacker : Bool)
  /-- Sample step of the decoder, micro-step 1: `PRED <- PRED ± delta`. -/
  | decSample (c : Code)
  /-- Micro-step 2: `PRED <- clampP(PRED)`. -/
  | clampPred
  /-- Micro-step 3: `SIDX <- SIDX + IDX_ROM[c]`. -/
  | adjustSidx (c : Code)
  /-- Micro-step 4: `SIDX <- clampI(SIDX)`. -/
  | clampSidx
  /-- ENC: `CNT <- N ; IDX_I <- 0 ; IDX_O <- 0 ; PK_PH <- 0`. -/
  | beginEnc (n : Nat)
  /-- DEC: `CNT <- M ; IDX_I <- 0 ; IDX_O <- 0 ; UP_PH <- 0`. -/
  | beginDec (m : Nat)
  /-- `MemRead(IN, 0, 1) ; IDX_I <- 1`; the seed and the verbatim first byte follow. -/
  | fetchSeed
  /-- `MemWrite(OUT, IDX_O, 1, b) ; IDX_O <- IDX_O + 1`. -/
  | emit (b : Byte)
  /-- The same with the committed predictor as the byte (DEC). -/
  | emitPred
  /-- `Pack(c)` (R74). -/
  | pack (c : Code)
  /-- `PackFlush()` (R74). -/
  | packFlush
  /-- The test of ENC's loop and, when it holds, the read of the next sample. -/
  | encNext
  /-- The test of DEC's loop and, when it holds, the read of the next byte and its low code (R76). -/
  | decNext
  /-- The held high code of the unpacker is delivered (R76). -/
  | unpackHigh
  /-- The result returns and BUSY goes to 0 (R14). -/
  | finish (r : ResultSource)
deriving DecidableEq, Repr

/-- Why the machine stops with a fault. The core itself raises nothing (R92). -/
inductive Fault where
  /-- A sample step addressed STEP_ROM outside 0 to 48: a location the model's table does not have (R62, U11). Raised
  by ENCS, DECS and the CODE4 rows in a state with INITD = 1 whose SIDX is not committed, which no run reaches. DESIGN
  CHOICE, log entry 10. Safe:
  the model stops where a realisation would read an unspecified word. -/
  | stepRomAddress
deriving DecidableEq, Repr

/-- The situations without a meaning (table of R102), and an instruction without one. Every one is safe: the model
stops where the spec gives no behaviour, so nothing can be proved about what follows. -/
inductive Refusal where
  /-- An instruction the model has no meaning for. No arm of `exec` raises it. Safe. -/
  | notModelled (mnemonic : String)
  /-- U1: ENCS, DECS, a CODE4, or a host read of PRED or SIDX, with INITD = 0. The spec itself says that a model refuses these
  (R72, R20, R102; decisions D7, D24). Safe. -/
  | uninitialised
  /-- U2: a command presented while BUSY = 1 (R105). Safe. -/
  | commandWhileBusy
  /-- U3: ENC or DEC whose result exceeds `OUT_CAP` (R36). Safe. -/
  | outputCapacity
  /-- U4: `op` is 5, 6 or 7 (R55). Raised when a command is presented. Safe. -/
  | reservedOp (op : OpField)
  /-- U5: an operand bit above the operand's width is set (R55). Raised when a command is presented. Safe. -/
  | operandTooWide
  /-- U6: ENC or DEC launched with IN and OUT overlapping in the platform's memory (R37). Safe. -/
  | buffersOverlap
  /-- U7: the host changes a byte of IN while the ENC or DEC that reads it is in progress (R108). Safe. -/
  | inputChanged
  /-- U8: an argument of more than `LEN_W` bits, which the interface cannot carry (R53). Raised when a command is
  presented, and by ENC and DEC. Safe. -/
  | argTooWide
deriving DecidableEq, Repr

structure State where
  /-- PRED, the predictor (R11). -/
  pred : PredReg
  /-- SIDX, the step index (R12). -/
  sidx : SidxReg
  /-- INITD, the initialised flag (R13). -/
  initd : Bool
  /-- BUSY, the operation-in-progress status (R14). -/
  busy : Bool
  /-- PK_LO, the packer's held low nibble (R15). -/
  pkLo : Code
  /-- PK_PH, the packer's phase: `true` is 1 (R15). -/
  pkPh : Bool
  /-- UP_HI, the unpacker's held high nibble (R16). -/
  upHi : Code
  /-- UP_PH, the unpacker's phase: `true` is 1 (R16). -/
  upPh : Bool
  /-- CNT, the count argument of a buffer operation (R17; a natural number, D4, log entry 1). -/
  cnt : Nat
  /-- IDX_I, the index of the next IN byte to read (R17). -/
  idxI : Nat
  /-- IDX_O, the index of the next OUT byte to write (R17). -/
  idxO : Nat
  /-- The command in progress, held for the duration of the operation (R28); `none` when idle. -/
  cmd : Option Instr
  /-- The micro-steps the operation in progress still has to perform, next first (R71). The model's own (log entry 8). -/
  todo : List Micro
  /-- The result last returned (R53, R9 `res`); `none` while an operation is in progress and after reset, when no
  result has been returned. Log entry 11. -/
  res : Option Nat
  /-- `LEN_W`, the width of the count argument (R7). No step changes it. -/
  lenW : Nat
  /-- The parameters of the current launch, or of the last one (R28). -/
  launch : Launch
  /-- The IN space (R29). -/
  inMem : Memory
  /-- The OUT space (R29). -/
  outMem : Memory
  /-- What the host's last read returned (R20); `none` before its first read. Log entry 11. -/
  rdata : Option ReadValue
  /-- The host's coming transactions, next first (R6). The model's own: it says who moves next (log entries 7
  and 16). -/
  inbox : List HostAct
deriving DecidableEq, Repr

/-- The machine right after reset (table of R27): INITD, BUSY, PK_PH and UP_PH are 0, as the spec says. It leaves
PRED, SIDX, PK_LO, UP_HI, CNT, IDX_I and IDX_O unspecified; they hold 0 here, DESIGN CHOICE, unsafe, log entry 4. No
operation can read them before they are written. -/
def State.reset : State where
  pred := 0
  sidx := 0
  initd := false
  busy := false
  pkLo := 0
  pkPh := false
  upHi := 0
  upPh := false
  cnt := 0
  idxI := 0
  idxO := 0
  cmd := none
  todo := []
  res := none
  lenW := Config.resetLenW
  launch := { outCap := Config.resetOutCap, binding := .separate }
  inMem := []
  outMem := []
  rdata := none
  inbox := []

end Sys2Proof.Machine
end

