-- ==== Sys2Proof/Machine/Flags.lean ====
section
/-! DEFINITION. Flags.lean: the core has no arithmetic flag (R18); its status bits are INITD and BUSY. Here are the two
bits as software reads them and the state read port over them and over PRED and SIDX (R19, R20). -/

namespace Sys2Proof.Machine

/-- The register number of a field of the STATE group (table of R19). -/
def StateField.register : StateField → Nat
  | .pred => 0
  | .sidx => 1
  | .initd => 2
  | .busy => 2

/-- The highest and lowest bit of a field in its register (table of R19). -/
def StateField.bits : StateField → Nat × Nat
  | .pred => (10, 0)
  | .sidx => (6, 0)
  | .initd => (0, 0)
  | .busy => (1, 1)

/-- STATE.2: INITD in bit 0, BUSY in bit 1 (table of R19). -/
def statusBits (s : State) : BitVec 2 := BitVec.ofBool s.busy ++ BitVec.ofBool s.initd

/-- One read through the state read port (R20). PRED and SIDX have no value to return while INITD = 0 (U1); INITD and
BUSY can always be read. -/
def readField (f : StateField) (s : State) : Option ReadValue :=
  match f with
  | .pred => if s.initd then some (.pred s.pred) else none
  | .sidx => if s.initd then some (.sidx s.sidx) else none
  | .initd => some (.initd s.initd)
  | .busy => some (.busy s.busy)

/-- A value read, on a bus of `w` bits: PRED and SIDX are sign-extended (R19), a flag stands in its bit of STATE.2
(R19), a byte of OUT is unsigned (R29). That a read of one flag shows 0 in every other bit, the other flag's included,
is DESIGN CHOICE, log entry 20. -/
def onBus (w : Nat) : ReadValue → BitVec w
  | .pred v => v.signExtend w
  | .sidx v => v.signExtend w
  | .initd v => BitVec.ofNat w v.toNat
  | .busy v => BitVec.ofNat w (2 * v.toNat)
  | .outByte v => v.zeroExtend w

end Sys2Proof.Machine
end

