-- ==== Sys2Proof/Machine/Rom.lean ====
section
/-! DEFINITION. Rom.lean: the two ROMs, literally (R58, R60). Both are constants of the design (R28, R62): they are no
part of State, and nothing writes them. -/

namespace Sys2Proof.Machine

/-- The contents of STEP_ROM, index 0 to 48, in the ten columns of the table of R58. -/
def stepTable : List StepWord :=
  [1, 1, 1, 1, 2, 2, 2, 3, 3, 4] ++ [4, 5, 5, 6, 7, 8, 9, 10, 11, 13] ++
  [14, 16, 18, 20, 22, 25, 28, 31, 35, 39] ++ [44, 49, 55, 61, 68, 76, 85, 95, 106, 118] ++
  [132, 147, 164, 183, 204, 228, 254, 283, 315]

/-- `STEP_ROM[i]`, an unsigned integer. The table has no word, and the model no default, at any other index (R62). -/
def stepRom (i : Int) : Option Nat :=
  if 0 ≤ i then (stepTable[i.toNat]?).map BitVec.toNat else none

/-- The contents of IDX_ROM, index 0 to 15, as 5-bit two's complement words (R60). -/
def idxTable : Vector IdxWord 16 :=
  #v[-1, -1, -1, -1, 2, 4, 6, 8, -1, -1, -1, -1, 2, 4, 6, 8]

/-- `IDX_ROM[c]`, sign-extended (R47 (c)). A code is 4 bits, so every index has its word. -/
def idxRom (c : Code) : Int :=
  (idxTable[c.toNat]'c.isLt).toInt

end Sys2Proof.Machine
end

