-- ==== Sys2Proof/Machine/Operands.lean ====
section
/-! DEFINITION. Operands.lean: how operands are assembled and the integer arithmetic every sample step shares: the
fields of a code (R46, R47), DELTA (R65), the saturation functions (R64), the encoder's quantiser (R68 steps 1 to 4),
and the packed byte (R49). -/

namespace Sys2Proof.Machine

/-- `m·x` of R65: a selection, not a multiplier. -/
def selected (m : Bool) (x : Nat) : Nat := if m then x else 0

/-- DELTA(step, m2, m1, m0) of a code (R65): the bias, and one addend for each magnitude bit set. -/
def codeDelta (step : Nat) (c : Code) : Nat :=
  (step >>> 3) + selected (c.getLsbD 2) step + selected (c.getLsbD 1) (step >>> 1) + selected (c.getLsbD 0) (step >>> 2)

/-- The predictor moved by `d` in the direction of the code's sign bit: bit 3 set subtracts (R47 (b)). -/
def moved (p : Int) (c : Code) (d : Nat) : Int := if c.getLsbD 3 then p - d else p + d

/-- `clampP` (R64). -/
def clampP (x : Int) : Int := max 0 (min 255 x)

/-- `clampI` (R64). -/
def clampI (x : Int) : Int := max 0 (min 48 x)

/-- The encoder's working values of R68 step 4: combinational, no registers (R22). -/
structure Quantiser where
  code : Code
  diff : Nat
  step : Nat
  delta : Nat
deriving DecidableEq, Repr

/-- One iteration of R68 step 4 for the magnitude bit `bit` (its weight in the code): compare, and halve the step
whether or not the bit was set. The comparison is made also when the step has reached 0 (R70). -/
def quantiseBit (bit : Code) (q : Quantiser) : Quantiser :=
  if q.step ≤ q.diff then
    { code := q.code ||| bit, diff := q.diff - q.step, delta := q.delta + q.step, step := q.step >>> 1 }
  else { q with step := q.step >>> 1 }

/-- R68 steps 1 to 3: the sign bit, the absolute difference, the step and the bias term. -/
def quantiserStart (p : Int) (step : Nat) (b : Byte) : Quantiser where
  code := if (b.toNat : Int) - p < 0 then 8 else 0
  diff := ((b.toNat : Int) - p).natAbs
  step := step
  delta := step >>> 3

/-- R68 steps 1 to 4: bits 2, 1, 0 in this order. `code` and `delta` of the answer are the code and the delta. -/
def quantise (p : Int) (step : Nat) (b : Byte) : Quantiser :=
  quantiseBit 1 (quantiseBit 2 (quantiseBit 4 (quantiserStart p step b)))

/-- PACKED: `lo | (hi << 4)`, the earlier code in the low nibble (R49). -/
def packedByte (lo hi : Code) : Byte := hi ++ lo

/-- `b[3:0]`, the earlier code of a packed byte (R49, R76). -/
def lowNibble (b : Byte) : Code := b.extractLsb' 0 4

/-- `b[7:4]`, the later code of a packed byte (R49, R76). -/
def highNibble (b : Byte) : Code := b.extractLsb' 4 4

/-- The bytes `ENC N` writes: 0 for a zero count, else `1 + ceil((N - 1)/2)` (R77, R78). -/
def encLength (n : Nat) : Nat := if n = 0 then 0 else 1 + n / 2

/-- The samples `DEC M` writes: 0 for a zero count, else `1 + (M - 1)·2` (R77, R78). -/
def decLength (m : Nat) : Nat := if m = 0 then 0 else 1 + (m - 1) * 2

end Sys2Proof.Machine
end

