-- ==== Sys2Proof/Machine/Ops.lean ====
section
/-! DEFINITION. Ops.lean: the named operations over the byte spaces and the registers that the meanings are built of.
There is no taking of an exception and no return from one: the core has no trap entry (R92, R96) and no trap return
(R97). What stands in their place is the launch: the refusals of R102, the acceptance of a command and the return of
its result (R14). -/

namespace Sys2Proof.Machine

/-! ### The byte spaces -/

/-- The byte at an index of a space: `MemRead(·, a, 1)` (R9). -/
def Memory.read : Memory → Nat → Byte
  | [], _ => Config.unwrittenByte
  | (k, v) :: m, a => if k = a then v else Memory.read m a

/-- One byte written, the canonical form kept: `MemWrite(·, a, 1, v)` (R9). -/
def Memory.write : Memory → Nat → Byte → Memory
  | [], a, v => if v = Config.unwrittenByte then [] else [(a, v)]
  | (k, w) :: m, a, v =>
    if a < k then if v = Config.unwrittenByte then (k, w) :: m else (a, v) :: (k, w) :: m
    else if a = k then if v = Config.unwrittenByte then m else (a, v) :: m
    else (k, w) :: Memory.write m a v

/-- Every index is at least `lo`, indices strictly rise, and no entry equals what an unlisted index reads as. -/
def Memory.wfFrom (lo : Nat) : Memory → Bool
  | [] => true
  | (k, v) :: m => decide (lo ≤ k) && v != Config.unwrittenByte && Memory.wfFrom (k + 1) m

/-- The canonical form of a byte space: equal spaces are equal lists. -/
def Memory.wf (m : Memory) : Bool := Memory.wfFrom 0 m

/-- `MemRead(IN, i, 1)`. -/
def readIn (i : Nat) (s : State) : Byte := Memory.read s.inMem i

/-- `MemWrite(OUT, IDX_O, 1, v) ; IDX_O <- IDX_O + 1`: every write of R73 to R75 has this form. -/
def emitByte (v : Byte) (s : State) : State :=
  { s with outMem := Memory.write s.outMem s.idxO v, idxO := s.idxO + 1 }

/-! ### The quantiser state register -/

/-- `PRED <- x` for an integer `x` (R11); the 11 bits hold every value of a run (log entry 19). -/
def setPred (x : Int) (s : State) : State := { s with pred := BitVec.ofInt 11 x }

/-- `SIDX <- x` for an integer `x` (R12). -/
def setSidx (x : Int) (s : State) : State := { s with sidx := BitVec.ofInt 7 x }

/-- `INITD <- 1` (R13). -/
def setInitd (s : State) : State := { s with initd := true }

/-- Micro-step 1 of a sample step: PRED takes the unclamped sum or difference (R71). -/
def movePred (c : Code) (d : Nat) (s : State) : State := setPred (moved s.pred.toInt c d) s

/-- Micro-step 2, State Clamp step 1 (R63). -/
def clampPred (s : State) : State := setPred (clampP s.pred.toInt) s

/-- Micro-step 3, State Clamp step 2 (R63). -/
def adjustSidx (c : Code) (s : State) : State := setSidx (s.sidx.toInt + idxRom c) s

/-- Micro-step 4, State Clamp step 3 (R63). -/
def clampSidx (s : State) : State := setSidx (clampI s.sidx.toInt) s

/-- The State Clamp for the code of the current sample step (R63). -/
def stateClamp (c : Code) (s : State) : State := clampSidx (adjustSidx c (clampPred s))

/-- The seed of INIT, ENC and DEC: `PRED <- b ; SIDX <- 0 ; INITD <- 1`; no State Clamp (R63, R67, R73, R75). -/
def seed (b : Byte) (s : State) : State := setInitd (setSidx 0 (setPred b.toNat s))

/-- The current step word, `STEP_ROM[SIDX]`. -/
def currentStep (s : State) : Option Nat := stepRom s.sidx.toInt

/-- PRED as a byte: its low 8 bits, which are all of a committed value (R23). -/
def predByte (s : State) : Byte := s.pred.setWidth 8

/-! ### The sample steps -/

/-- `EncStep(b)`: the body of ENCS (R68 steps 1 to 7). No answer where STEP_ROM has no word. -/
def encStep (b : Byte) (s : State) : Option (Code × State) :=
  match currentStep s with
  | none => none
  | some step =>
    let q := quantise s.pred.toInt step b
    some (q.code, stateClamp q.code (movePred q.code q.delta s))

/-- `DecStep(c)`: the body of DECS (R69). No answer where STEP_ROM has no word. -/
def decStep (c : Code) (s : State) : Option (Byte × State) :=
  match currentStep s with
  | none => none
  | some step =>
    let t := stateClamp c (movePred c (codeDelta step c) s)
    some (predByte t, t)

/-! ### The packer, the unpacker and the counters -/

/-- `CNT <- n ; IDX_I <- 0 ; IDX_O <- 0 ; PK_PH <- 0` (R73). -/
def beginEnc (n : Nat) (s : State) : State := { s with cnt := n, idxI := 0, idxO := 0, pkPh := false }

/-- `CNT <- m ; IDX_I <- 0 ; IDX_O <- 0 ; UP_PH <- 0` (R75). -/
def beginDec (m : Nat) (s : State) : State := { s with cnt := m, idxI := 0, idxO := 0, upPh := false }

/-- `IDX_I <- IDX_I + 1` (R17). -/
def advanceIn (s : State) : State := { s with idxI := s.idxI + 1 }

/-- PK_LO takes a code and PK_PH becomes 1 (R74). -/
def holdCode (c : Code) (s : State) : State := { s with pkLo := c, pkPh := true }

/-- PK_PH becomes 0 (R74). -/
def releasePack (s : State) : State := { s with pkPh := false }

/-- `Pack(c)` (R74). -/
def pack (c : Code) (s : State) : State :=
  if s.pkPh then releasePack (emitByte (packedByte s.pkLo c) s) else holdCode c s

/-- `PackFlush()`: the trailing byte has a zero high nibble (R74, R51). -/
def packFlush (s : State) : State :=
  if s.pkPh then releasePack (emitByte (packedByte s.pkLo 0) s) else s

/-- The first half of `Unpack(b)`: `UP_HI <- b[7:4] ; UP_PH <- 1` (R76). -/
def holdHigh (b : Byte) (s : State) : State := { s with upHi := highNibble b, upPh := true }

/-- The second half: `UP_PH <- 0`, the held code being delivered (R76). -/
def releaseHigh (s : State) : State := { s with upPh := false }

/-! ### Launching a command -/

/-- BUSY becomes 1 and no result is outstanding (R14). -/
def accept (s : State) : State := { s with busy := true, res := none }

/-- The result returns and BUSY becomes 0 (R14). -/
def returnResult (r : Nat) (s : State) : State := { s with busy := false, res := some r }

/-- IN (of `n` bytes) and OUT (of `OUT_CAP` bytes) share a byte of the platform's memory (R37). Log entry 12. -/
def overlapping (n : Nat) (l : Launch) : Bool :=
  match l.binding with
  | .separate => false
  | .oneMemory i o => decide (0 < n) && decide (0 < l.outCap) && decide (i < o + l.outCap) && decide (o < i + n)

/-- Why a command that needs nothing but an idle core is refused (R105). -/
def idleRefusal (s : State) : Option Refusal :=
  if s.busy then some .commandWhileBusy else none

/-- Why a sample operation is refused: BUSY = 1 (R105) or INITD = 0 (R72, R102 U1: the model
"must not give them a value"). -/
def sampleRefusal (s : State) : Option Refusal :=
  if s.busy then some .commandWhileBusy
  else if s.initd then none
  else some .uninitialised

/-- Why a buffer operation with count `n` and result `len` is refused (R102 U2, U8, U3, U6). The order of the
situations is DESIGN CHOICE, log entry 15. -/
def bufferRefusal (n len : Nat) (s : State) : Option Refusal :=
  if s.busy then some .commandWhileBusy
  else if 2 ^ s.lenW ≤ n then some .argTooWide
  else if s.launch.outCap < len then some .outputCapacity
  else if overlapping n s.launch then some .buffersOverlap
  else none

/-- One command as one transaction (R5): refused with `why`, or accepted, performed to completion by `body`, which
answers the result and the state, and its result returned (R14, R90). -/
def transact (why : Option Refusal) (body : State → Option (Nat × State)) (s : State) :
    Host.Outcome State Fault Refusal :=
  match why with
  | some r => .refused r
  | none =>
    match body (accept s) with
    | none => .fault .stepRomAddress
    | some (r, t) => .next (returnResult r t)

end Sys2Proof.Machine
end

