-- ==== Sys2Proof/Machine/Buffer.lean ====
section
/-! DEFINITION. Buffer.lean: the buffer operations ENC (R73) and DEC (R75). A zero count is answered before anything is
touched (R77). The loops run once for each IN byte after the first, so their bound is the count (R90). -/

namespace Sys2Proof.Machine

/-- One pass of ENC's loop: read the next sample, encode it, pack the code (R73 steps 2 and 3). -/
def encIteration (s : State) : Option State :=
  (encStep (readIn s.idxI s) (advanceIn s)).map (fun ct => pack ct.1 ct.2)

/-- `k` passes of ENC's loop. -/
def encLoop : Nat → State → Option State
  | 0, s => some s
  | k + 1, s => (encIteration s).bind (encLoop k)

/-- One pass of DEC's loop: read the next byte, decode its low code and write the sample, then its high code (R75,
R76). -/
def decIteration (s : State) : Option State :=
  let b := readIn s.idxI s
  match decStep (lowNibble b) (holdHigh b (advanceIn s)) with
  | none => none
  | some (y1, t1) =>
    let t2 := emitByte y1 t1
    (decStep t2.upHi (releaseHigh t2)).map (fun yt => emitByte yt.1 yt.2)

/-- `k` passes of DEC's loop. -/
def decLoop : Nat → State → Option State
  | 0, s => some s
  | k + 1, s => (decIteration s).bind (decLoop k)

/-- The opening of ENC and DEC after the counters are set: the first byte is read, loaded as the seed and written
verbatim (R73 step 1, R75). -/
def seedFromBuffer (s : State) : State :=
  let b := readIn 0 s
  emitByte b (seed b (advanceIn s))

/-- The body of ENC (R73): the result is the number of bytes written. -/
def encBody (n : Nat) (s : State) : Option (Nat × State) :=
  if n = 0 then some (0, s)
  else (encLoop (n - 1) (seedFromBuffer (beginEnc n s))).map (fun t => ((packFlush t).idxO, packFlush t))

/-- The body of DEC (R75): the result is the number of samples written. -/
def decBody (m : Nat) (s : State) : Option (Nat × State) :=
  if m = 0 then some (0, s)
  else (decLoop (m - 1) (seedFromBuffer (beginDec m s))).map (fun t => (t.idxO, t))

/-- `ENC N` (R73). -/
def execEnc (n : Nat) (s : State) : Host.Outcome State Fault Refusal :=
  transact (bufferRefusal n (encLength n) s) (encBody n) s

/-- `DEC M` (R75). -/
def execDec (m : Nat) (s : State) : Host.Outcome State Fault Refusal :=
  transact (bufferRefusal m (decLength m) s) (decBody m) s

end Sys2Proof.Machine
end

