-- ==== Sys2Proof/Machine/Sample.lean ====
section
/-! DEFINITION. Sample.lean: the per-sample operations INIT (R67), ENCS (R68) and DECS (R69). They touch no buffer
(R35). -/

namespace Sys2Proof.Machine

/-- `INIT s` (R67): needs nothing but an idle core, result 0. -/
def execInit (b : Byte) (s : State) : Host.Outcome State Fault Refusal :=
  transact (idleRefusal s) (fun s => some (0, seed b s)) s

/-- `ENCS s` (R68): the result is the code. -/
def execEncs (b : Byte) (s : State) : Host.Outcome State Fault Refusal :=
  transact (sampleRefusal s) (fun s => (encStep b s).map (fun ct => (ct.1.toNat, ct.2))) s

/-- The decoder block given one code, as a transaction (R69): the result is the clamped predictor, also where `LEN_W + 1`
is less than the 8 bits it takes (DESIGN CHOICE, log entry 21). -/
def decodeCommand (c : Code) (s : State) : Host.Outcome State Fault Refusal :=
  transact (sampleRefusal s) (fun s => (decStep c s).map (fun bt => (bt.1.toNat, bt.2))) s

/-- `DECS c` (R69). -/
def execDecs (c : Code) (s : State) : Host.Outcome State Fault Refusal := decodeCommand c s

end Sys2Proof.Machine
end

