-- ==== Sys2Proof/Machine/CodeRows.lean ====
section
/-! DEFINITION. CodeRows.lean: the sixteen CODE4 rows of spec/opcode_table.json. Each names R69 as its semantics: the code,
given to the sample decoder, moves PRED and SIDX as that row's direction, delta and index delta say. Log entry 5. -/

namespace Sys2Proof.Machine

/-- CODE_0 (R69, R46). -/
def execCode0 (s : State) : Host.Outcome State Fault Refusal := decodeCommand 0b0000#4 s

/-- CODE_1 (R69, R46). -/
def execCode1 (s : State) : Host.Outcome State Fault Refusal := decodeCommand 0b0001#4 s

/-- CODE_2 (R69, R46). -/
def execCode2 (s : State) : Host.Outcome State Fault Refusal := decodeCommand 0b0010#4 s

/-- CODE_3 (R69, R46). -/
def execCode3 (s : State) : Host.Outcome State Fault Refusal := decodeCommand 0b0011#4 s

/-- CODE_4 (R69, R46). -/
def execCode4 (s : State) : Host.Outcome State Fault Refusal := decodeCommand 0b0100#4 s

/-- CODE_5 (R69, R46). -/
def execCode5 (s : State) : Host.Outcome State Fault Refusal := decodeCommand 0b0101#4 s

/-- CODE_6 (R69, R46). -/
def execCode6 (s : State) : Host.Outcome State Fault Refusal := decodeCommand 0b0110#4 s

/-- CODE_7 (R69, R46). -/
def execCode7 (s : State) : Host.Outcome State Fault Refusal := decodeCommand 0b0111#4 s

/-- CODE_8 (R69, R46). -/
def execCode8 (s : State) : Host.Outcome State Fault Refusal := decodeCommand 0b1000#4 s

/-- CODE_9 (R69, R46). -/
def execCode9 (s : State) : Host.Outcome State Fault Refusal := decodeCommand 0b1001#4 s

/-- CODE_10 (R69, R46). -/
def execCode10 (s : State) : Host.Outcome State Fault Refusal := decodeCommand 0b1010#4 s

/-- CODE_11 (R69, R46). -/
def execCode11 (s : State) : Host.Outcome State Fault Refusal := decodeCommand 0b1011#4 s

/-- CODE_12 (R69, R46). -/
def execCode12 (s : State) : Host.Outcome State Fault Refusal := decodeCommand 0b1100#4 s

/-- CODE_13 (R69, R46). -/
def execCode13 (s : State) : Host.Outcome State Fault Refusal := decodeCommand 0b1101#4 s

/-- CODE_14 (R69, R46). -/
def execCode14 (s : State) : Host.Outcome State Fault Refusal := decodeCommand 0b1110#4 s

/-- CODE_15 (R69, R46). -/
def execCode15 (s : State) : Host.Outcome State Fault Refusal := decodeCommand 0b1111#4 s

end Sys2Proof.Machine
end

