-- ==== Sys2Proof/Machine/Dispatch.lean ====
section
/-! DEFINITION. Dispatch.lean: one arm per instruction, each one call of its meaning. -/

namespace Sys2Proof.Machine

def exec (i : Instr) (s : State) : Host.Outcome State Fault Refusal :=
  match i with
  | .init b => Sys2Proof.Machine.execInit b s
  | .encs b => Sys2Proof.Machine.execEncs b s
  | .decs c => Sys2Proof.Machine.execDecs c s
  | .enc n => Sys2Proof.Machine.execEnc n s
  | .dec m => Sys2Proof.Machine.execDec m s
  | .code0 => Sys2Proof.Machine.execCode0 s
  | .code1 => Sys2Proof.Machine.execCode1 s
  | .code2 => Sys2Proof.Machine.execCode2 s
  | .code3 => Sys2Proof.Machine.execCode3 s
  | .code4 => Sys2Proof.Machine.execCode4 s
  | .code5 => Sys2Proof.Machine.execCode5 s
  | .code6 => Sys2Proof.Machine.execCode6 s
  | .code7 => Sys2Proof.Machine.execCode7 s
  | .code8 => Sys2Proof.Machine.execCode8 s
  | .code9 => Sys2Proof.Machine.execCode9 s
  | .code10 => Sys2Proof.Machine.execCode10 s
  | .code11 => Sys2Proof.Machine.execCode11 s
  | .code12 => Sys2Proof.Machine.execCode12 s
  | .code13 => Sys2Proof.Machine.execCode13 s
  | .code14 => Sys2Proof.Machine.execCode14 s
  | .code15 => Sys2Proof.Machine.execCode15 s

end Sys2Proof.Machine
end

