-- ==== Sys2Proof/Machine/Micro.lean ====
section
/-! DEFINITION. Micro.lean: an operation in progress, micro-step by micro-step (R71, R20, R22), for a host that reads STATE
or OUT, or resets the core, before the result has returned. The micro-steps are those of the meanings, over the same
shared operations, in the order of the pseudocode of R67 to R69 and R73 to R76. -/

namespace Sys2Proof.Machine

/-- The micro-steps scheduled next, ahead of what is still to do. -/
def schedule (ms : List Micro) (s : State) : State := { s with todo := ms ++ s.todo }

/-- The three State Clamp micro-steps of a sample step with code `c` (R63, R71). -/
def clampMicros (c : Code) : List Micro := [.clampPred, .adjustSidx c, .clampSidx]

/-- The value a result source names in a state. -/
def resultOf (r : ResultSource) (s : State) : Nat :=
  match r with
  | .value v => v
  | .pred => (predByte s).toNat
  | .idxO => s.idxO

/-- The completion of an operation: its result returns, BUSY goes to 0 and no command is held any more (R14, R28). -/
def finishOperation (r : ResultSource) (s : State) : State :=
  { returnResult (resultOf r s) s with cmd := none }

/-- One micro-step, already taken off `todo`. No answer where STEP_ROM has no word at SIDX. -/
def microOp (m : Micro) (s : State) : Option State :=
  match m with
  | .writePred b => some (setPred b.toNat s)
  | .zeroSidx => some (setSidx 0 s)
  | .setInitd => some (setInitd s)
  | .encSample b toPacker =>
    (currentStep s).map fun step =>
      let q := quantise s.pred.toInt step b
      let last : Micro := if toPacker then .pack q.code else .finish (.value q.code.toNat)
      schedule (clampMicros q.code ++ [last]) (movePred q.code q.delta s)
  | .decSample c =>
    (currentStep s).map fun step => schedule (clampMicros c) (movePred c (codeDelta step c) s)
  | .clampPred => some (clampPred s)
  | .adjustSidx c => some (adjustSidx c s)
  | .clampSidx => some (clampSidx s)
  | .beginEnc n => some (beginEnc n s)
  | .beginDec m => some (beginDec m s)
  | .fetchSeed =>
    let b := readIn 0 s
    some (schedule [.writePred b, .zeroSidx, .setInitd, .emit b] (advanceIn s))
  | .emit b => some (emitByte b s)
  | .emitPred => some (emitByte (predByte s) s)
  | .pack c => some (pack c s)
  | .packFlush => some (packFlush s)
  | .encNext =>
    if s.idxI < s.cnt then some (schedule [.encSample (readIn s.idxI s) true, .encNext] (advanceIn s))
    else some (schedule [.packFlush, .finish .idxO] s)
  | .decNext =>
    if s.idxI < s.cnt then
      let b := readIn s.idxI s
      some (schedule [.decSample (lowNibble b), .emitPred, .unpackHigh, .decNext] (holdHigh b (advanceIn s)))
    else some (schedule [.finish .idxO] s)
  | .unpackHigh => some (schedule [.decSample s.upHi, .emitPred] (releaseHigh s))
  | .finish r => some (finishOperation r s)

/-- The core performs its next micro-step; an idle core does nothing (R71, R79). -/
def microStep (s : State) : Host.Outcome State Fault Refusal :=
  match s.todo with
  | [] => .next s
  | m :: rest =>
    match microOp m { s with todo := rest } with
    | none => .fault .stepRomAddress
    | some t => .next t

/-- The micro-steps of the sample decoder as a command (R69). -/
def decodeProgram (c : Code) : List Micro := [.decSample c, .finish .pred]

/-- The micro-steps an accepted command begins with (R67, R68, R69, R73, R75; R77 for a zero count). -/
def microProgram (i : Instr) : List Micro :=
  match i with
  | .init b => [.writePred b, .zeroSidx, .setInitd, .finish (.value 0)]
  | .encs b => [.encSample b false]
  | .decs c => decodeProgram c
  | .enc n => if n = 0 then [.finish (.value 0)] else [.beginEnc n, .fetchSeed, .encNext]
  | .dec m => if m = 0 then [.finish (.value 0)] else [.beginDec m, .fetchSeed, .decNext]
  | .code0 => decodeProgram 0b0000#4
  | .code1 => decodeProgram 0b0001#4
  | .code2 => decodeProgram 0b0010#4
  | .code3 => decodeProgram 0b0011#4
  | .code4 => decodeProgram 0b0100#4
  | .code5 => decodeProgram 0b0101#4
  | .code6 => decodeProgram 0b0110#4
  | .code7 => decodeProgram 0b0111#4
  | .code8 => decodeProgram 0b1000#4
  | .code9 => decodeProgram 0b1001#4
  | .code10 => decodeProgram 0b1010#4
  | .code11 => decodeProgram 0b1011#4
  | .code12 => decodeProgram 0b1100#4
  | .code13 => decodeProgram 0b1101#4
  | .code14 => decodeProgram 0b1110#4
  | .code15 => decodeProgram 0b1111#4

/-- Why a presented command is refused (R102): for each instruction the check its meaning makes. -/
def launchRefusal (i : Instr) (s : State) : Option Refusal :=
  match i with
  | .init _ => idleRefusal s
  | .encs _ => sampleRefusal s
  | .decs _ => sampleRefusal s
  | .enc n => bufferRefusal n (encLength n) s
  | .dec m => bufferRefusal m (decLength m) s
  | .code0 => sampleRefusal s
  | .code1 => sampleRefusal s
  | .code2 => sampleRefusal s
  | .code3 => sampleRefusal s
  | .code4 => sampleRefusal s
  | .code5 => sampleRefusal s
  | .code6 => sampleRefusal s
  | .code7 => sampleRefusal s
  | .code8 => sampleRefusal s
  | .code9 => sampleRefusal s
  | .code10 => sampleRefusal s
  | .code11 => sampleRefusal s
  | .code12 => sampleRefusal s
  | .code13 => sampleRefusal s
  | .code14 => sampleRefusal s
  | .code15 => sampleRefusal s

/-- A command presented by a host that does not wait: accepted, held, and its micro-steps scheduled (R14, R28). -/
def beginCommand (i : Instr) (s : State) : Host.Outcome State Fault Refusal :=
  match launchRefusal i s with
  | some r => .refused r
  | none => .next { accept s with cmd := some i, todo := microProgram i }

/-- A one-byte access of the core to IN or OUT (R30). -/
inductive Access where
  | readIn (i : Nat)
  | writeOut (j : Nat)
deriving DecidableEq, Repr

/-- The access to IN or OUT that a micro-step makes (R33, R34). -/
def microAccess (m : Micro) (s : State) : Option Access :=
  match m with
  | .writePred _ => none
  | .zeroSidx => none
  | .setInitd => none
  | .encSample _ _ => none
  | .decSample _ => none
  | .clampPred => none
  | .adjustSidx _ => none
  | .clampSidx => none
  | .beginEnc _ => none
  | .beginDec _ => none
  | .fetchSeed => some (.readIn 0)
  | .emit _ => some (.writeOut s.idxO)
  | .emitPred => some (.writeOut s.idxO)
  | .pack _ => if s.pkPh then some (.writeOut s.idxO) else none
  | .packFlush => if s.pkPh then some (.writeOut s.idxO) else none
  | .encNext => if s.idxI < s.cnt then some (.readIn s.idxI) else none
  | .decNext => if s.idxI < s.cnt then some (.readIn s.idxI) else none
  | .unpackHigh => none
  | .finish _ => none

/-- The access that the core's next micro-step makes. -/
def nextAccess (s : State) : Option Access :=
  match s.todo with
  | [] => none
  | m :: _ => microAccess m s

/-- The accesses of the next `k` micro-steps, in order. -/
def accessesOf : Nat → State → List Access
  | 0, _ => []
  | k + 1, s =>
    match microStep s with
    | .next t => (nextAccess s).toList ++ accessesOf k t
    | .fault _ => []
    | .refused _ => []

end Sys2Proof.Machine
end

