-- ==== Sys2Proof/Machine/HostPort.lean ====
section
/-! DEFINITION. HostPort.lean: what one transaction of the host does (R6): presenting a command (R53, R56), the state
read port (R20), filling IN and reading OUT (R29, R42), reset (R103). -/

namespace Sys2Proof.Machine

/-- The situation of R102 that a rejected command word is. -/
def rejected : DecodeError → Refusal
  | .reservedOp op => .reservedOp op
  | .operandTooWide => .operandTooWide
  | .argTooWide => .argTooWide

/-- A command is presented with its launch parameters, and its result waited for: the decoded instruction runs. -/
def runCommand (l : Launch) (w : CommandWord) (s : State) : Host.Outcome State Fault Refusal :=
  match decode s.lenW w with
  | .error e => .refused (rejected e)
  | .ok i => exec i { s with launch := l }

/-- A command is presented with its launch parameters, and not waited for. -/
def startCommand (l : Launch) (w : CommandWord) (s : State) : Host.Outcome State Fault Refusal :=
  match decode s.lenW w with
  | .error e => .refused (rejected e)
  | .ok i => beginCommand i { s with launch := l }

/-- A read through the state read port; reading PRED or SIDX with INITD = 0 is refused (R20, R102 U1). It changes nothing of
the core. -/
def hostRead (f : StateField) (s : State) : Host.Outcome State Fault Refusal :=
  match readField f s with
  | none => .refused .uninitialised
  | some v => .next { s with rdata := some v }

/-- The number of IN bytes the operation in progress reads: its count (R29); 0 when it reads none. -/
def inputCount (s : State) : Nat :=
  match s.cmd with
  | some (.enc n) => n
  | some (.dec m) => m
  | _ => 0

/-- The host writes a byte of IN. Changing a byte that the operation in progress reads is refused (R108, U7).
Log entry 13. -/
def hostWriteIn (i : Nat) (b : Byte) (s : State) : Host.Outcome State Fault Refusal :=
  if i < inputCount s ∧ b ≠ readIn i s then .refused .inputChanged
  else .next { s with inMem := Memory.write s.inMem i b }

/-- The host reads a byte of OUT: during an operation it sees the writes done so far (R42 (c), U13). Log entries
16 and 17. -/
def hostReadOut (j : Nat) (s : State) : Host.Outcome State Fault Refusal :=
  .next { s with rdata := some (.outByte (Memory.read s.outMem j)) }

/-- The reset event (R103): every register takes its reset value, an operation in progress is abandoned and returns no
result; IN, OUT and the platform's side keep what they hold. PRED, SIDX and the other registers the spec leaves
unspecified take the values of `State.reset` (log entries 4 and 14). -/
def coreReset (s : State) : State :=
  { State.reset with
    lenW := s.lenW, launch := s.launch, inMem := s.inMem, outMem := s.outMem, rdata := s.rdata, inbox := s.inbox }

/-- What one act of the host does, already taken off `inbox`. -/
def hostAct (a : HostAct) (s : State) : Host.Outcome State Fault Refusal :=
  match a with
  | .run l w => runCommand l w s
  | .start l w => startCommand l w s
  | .core => microStep s
  | .readState f => hostRead f s
  | .writeIn i b => hostWriteIn i b s
  | .readOut j => hostReadOut j s
  | .reset => .next (coreReset s)

end Sys2Proof.Machine
end

