-- ==== Sys2Proof/Machine/Step.lean ====
section
/-! DEFINITION. Step.lean: one step of the machine. The core fetches nothing from memory (R17): what it does next is the
host's next transaction; when the host does nothing, the core goes on with the operation in progress, or stays as it
is (R6, R79). Log entry 7. -/

namespace Sys2Proof.Machine

/-- One step. -/
def step (s : State) : Host.Outcome State Fault Refusal :=
  match s.inbox with
  | [] => microStep s
  | a :: rest => hostAct a { s with inbox := rest }

/-- The instruction of a table word, put where `step` takes its next one from: as the host's next transaction, with the
launch parameters the state holds. -/
def State.withFetchWord (s : State) (nbits w : Nat) : State :=
  { s with inbox := .run s.launch (tableWord nbits w) :: s.inbox }

end Sys2Proof.Machine
end

