-- ==== Sys2Proof/Safety.lean ====
section
/-! DEFINITION. Safety.lean: the terms in which claims speak of a state: committed and transient values of the quantiser
state register (R11, R12, R22, R23), an idle core, and the invariant that every step keeps. -/

namespace Sys2Proof.Machine

/-- PRED holds a committed value (R11). -/
abbrev PredCommitted (s : State) : Prop := 0 ≤ s.pred.toInt ∧ s.pred.toInt ≤ 255

/-- SIDX holds a committed value (R12). -/
abbrev SidxCommitted (s : State) : Prop := 0 ≤ s.sidx.toInt ∧ s.sidx.toInt ≤ 48

/-- Both fields hold committed values (R23). -/
abbrev Committed (s : State) : Prop := PredCommitted s ∧ SidxCommitted s

/-- The ranges in which PRED and SIDX stay at every micro-step boundary (R11, R12, R22). -/
abbrev InTransientRange (s : State) : Prop :=
  (-589 ≤ s.pred.toInt ∧ s.pred.toInt ≤ 844) ∧ (-1 ≤ s.sidx.toInt ∧ s.sidx.toInt ≤ 56)

/-- No operation is in progress: BUSY = 0, no micro-step is left and no command is held (R14, R28). -/
abbrev Idle (s : State) : Prop := s.busy = false ∧ s.todo = [] ∧ s.cmd = none

/-- An idle core whose state register may be operated on (R72). -/
abbrev Ready (s : State) : Prop := Idle s ∧ s.initd = true ∧ Committed s

/-- A launch of a buffer operation with count `n` and result `len` that meets no situation of R102. -/
abbrev Launchable (n len : Nat) (s : State) : Prop :=
  s.busy = false ∧ n < 2 ^ s.lenW ∧ len ≤ s.launch.outCap ∧ overlapping n s.launch = false

/-- What is known of an operation in progress at one place of its micro-steps. -/
structure Known where
  /-- PRED is committed. -/
  pred : Bool
  /-- SIDX is committed. -/
  sidx : Bool
  /-- INITD = 1. -/
  initd : Bool
  /-- IDX_I is below CNT. -/
  count : Bool
  /-- PK_PH = 0. -/
  packer : Bool
  /-- UP_PH = 0. -/
  unpacker : Bool
deriving DecidableEq, Repr

/-- What is known in a state. -/
def knownOf (s : State) : Known where
  pred := decide (PredCommitted s)
  sidx := decide (SidxCommitted s)
  initd := s.initd
  count := decide (s.idxI < s.cnt)
  packer := !s.pkPh
  unpacker := !s.upPh

/-- A sample step may begin: the state register is initialised and committed (R68, R69, R72). -/
def Known.canStep (k : Known) : Bool := k.initd && k.pred && k.sidx

/-- An operation may complete: an initialised state register is committed (R23), and packer and unpacker hold nothing
(R74, R76). -/
def Known.canFinish (k : Known) : Bool := (!k.initd || (k.pred && k.sidx)) && k.packer && k.unpacker

/-- The micro-steps left, begun where `k` is known, meet what each of them needs and end in the completion of the
operation. -/
def sound (lenW : Nat) (k : Known) : List Micro → Bool
  | [] => false
  | m :: rest =>
    match m with
    | .writePred _ => sound lenW { k with pred := true } rest
    | .zeroSidx => sound lenW { k with sidx := true } rest
    | .setInitd => k.pred && k.sidx && sound lenW { k with initd := true } rest
    | .encSample _ true => k.canStep && sound lenW { k with packer := false } rest
    | .encSample _ false => k.canStep && k.canFinish && rest.isEmpty
    | .decSample _ => k.canStep && sound lenW k rest
    | .clampPred => sound lenW { k with pred := true } rest
    | .adjustSidx _ => k.sidx && sound lenW { k with sidx := false } rest
    | .clampSidx => sound lenW { k with sidx := true } rest
    | .beginEnc n => decide (0 < n ∧ n < 2 ^ lenW) && sound lenW { k with count := true, packer := true } rest
    | .beginDec n => decide (0 < n ∧ n < 2 ^ lenW) && sound lenW { k with count := true, unpacker := true } rest
    | .fetchSeed => k.count && sound lenW { k with pred := true, sidx := true, initd := true, count := false } rest
    | .emit _ => sound lenW k rest
    | .emitPred => k.pred && sound lenW k rest
    | .pack _ => sound lenW { k with packer := false } rest
    | .packFlush => sound lenW { k with packer := true } rest
    | .encNext => k.canStep && k.unpacker && rest.isEmpty
    | .decNext => k.canStep && k.packer && k.unpacker && rest.isEmpty
    | .unpackHigh => k.canStep && sound lenW { k with unpacker := true } rest
    | .finish _ => k.canFinish && rest.isEmpty

/-- The invariant of the machine, idle or in the middle of an operation: the byte spaces are canonical; PRED and SIDX
are in their transient ranges (R22); IDX_I does not pass CNT and CNT fits `LEN_W` bits (R17); an idle core holds no
command, its packer and unpacker hold nothing (R74, R76), and its initialised state register is committed (R23); a busy
core holds a command and its remaining micro-steps are sound. -/
abbrev Inv (s : State) : Prop :=
  (s.inMem.wf = true ∧ s.outMem.wf = true) ∧
  InTransientRange s ∧
  (s.idxI ≤ s.cnt ∧ s.cnt < 2 ^ s.lenW) ∧
  (s.busy = false →
    s.todo = [] ∧ s.cmd = none ∧ s.pkPh = false ∧ s.upPh = false ∧ (s.initd = true → Committed s)) ∧
  (s.busy = true → s.cmd ≠ none ∧ sound s.lenW (knownOf s) s.todo = true)

/-- The next state of an outcome, if it is one. -/
def nextState? : Host.Outcome State Fault Refusal → Option State
  | .next s => some s
  | .fault _ => none
  | .refused _ => none

/-- The reason of a refusal, if the outcome is one. -/
def refusal? : Host.Outcome State Fault Refusal → Option Refusal
  | .next _ => none
  | .fault _ => none
  | .refused r => some r

end Sys2Proof.Machine
end

