-- ==== Sys2Proof/Certificates/Slice0/Obligations.lean ====
section
/-! DEFINITION. Obligations.lean: the statements for the provers. Each docstring names the rule of spec/ it formalises; the
statement's entry in OBLIGATIONS.json quotes or cites it. -/

namespace Sys2Proof.Machine

/-! ### Terms of the statements -/

/-- `m·x` of R65, for the statements. -/
def addend (m : Bool) (x : Nat) : Nat := if m then x else 0

/-- DELTA of R65 with its right shifts as the floor divisions they equal (R66). -/
def deltaOf (step : Nat) (m2 m1 m0 : Bool) : Nat :=
  step / 8 + addend m2 step + addend m1 (step / 2) + addend m0 (step / 4)

/-- `s` after one sample step that subtracts (`neg`) or adds `delta`, adjusts SIDX by `d` and returns `r` (R63, R71):
everything else as it was. -/
def sampleResult (neg : Bool) (delta : Nat) (d : Int) (r : Nat) (s : State) : State :=
  { s with
    pred := BitVec.ofInt 11 (clampP (if neg then s.pred.toInt - delta else s.pred.toInt + delta))
    sidx := BitVec.ofInt 7 (clampI (s.sidx.toInt + d))
    res := some r }

/-- What DECS returns (R69): the clamped predictor. -/
def decodedSample (neg : Bool) (delta : Nat) (s : State) : Nat :=
  (clampP (if neg then s.pred.toInt - delta else s.pred.toInt + delta)).toNat

/-- One CODE4 row of spec/opcode_table.json, as the table prints it. -/
structure CodeRow where
  instr : Instr
  neg : Bool
  m2 : Bool
  m1 : Bool
  m0 : Bool
  indexDelta : Int

/-- The sixteen CODE4 rows of spec/opcode_table.json: `s`, `m2`, `m1`, `m0`, `index_delta`. -/
def codeRowTable : List CodeRow :=
  [⟨.code0, false, false, false, false, -1⟩, ⟨.code1, false, false, false, true, -1⟩,
   ⟨.code2, false, false, true, false, -1⟩, ⟨.code3, false, false, true, true, -1⟩,
   ⟨.code4, false, true, false, false, 2⟩, ⟨.code5, false, true, false, true, 4⟩,
   ⟨.code6, false, true, true, false, 6⟩, ⟨.code7, false, true, true, true, 8⟩,
   ⟨.code8, true, false, false, false, -1⟩, ⟨.code9, true, false, false, true, -1⟩,
   ⟨.code10, true, false, true, false, -1⟩, ⟨.code11, true, false, true, true, -1⟩,
   ⟨.code12, true, true, false, false, 2⟩, ⟨.code13, true, true, false, true, 4⟩,
   ⟨.code14, true, true, true, false, 6⟩, ⟨.code15, true, true, true, true, 8⟩]

/-- The contents of STEP_ROM as the table of R58 prints them, a row of ten indices a line. -/
def stepRomContents : List Nat :=
  [1, 1, 1, 1, 2, 2, 2, 3, 3, 4] ++
  [4, 5, 5, 6, 7, 8, 9, 10, 11, 13] ++
  [14, 16, 18, 20, 22, 25, 28, 31, 35, 39] ++
  [44, 49, 55, 61, 68, 76, 85, 95, 106, 118] ++
  [132, 147, 164, 183, 204, 228, 254, 283, 315]

/-- A host read of PRED and one of SIDX return what the registers hold (R20). -/
def readsShowRegisters (s : State) : Prop :=
  readField .pred s = some (.pred s.pred) ∧ readField .sidx s = some (.sidx s.sidx)

/-- A host read of PRED and one of SIDX are refused: `hostRead` has no value to return (R20, U1). -/
def readsAreRefused (s : State) : Prop :=
  hostRead .pred s = .refused .uninitialised ∧ hostRead .sidx s = .refused .uninitialised

/-- The codes ENCS can return at a step index (table of R88). -/
def encoderCodes (sidx : Int) : List Nat :=
  if sidx ≤ 3 then [3, 7, 15]
  else if sidx ≤ 8 then [1, 3, 5, 7, 11, 13, 15]
  else if sidx ≤ 14 then [0, 1, 2, 3, 4, 5, 6, 7, 9, 10, 11, 12, 13, 14, 15]
  else if sidx ≤ 40 then List.range 16
  else if sidx ≤ 42 then [0, 1, 2, 3, 4, 5, 6, 8, 9, 10, 11, 12, 13, 14]
  else if sidx ≤ 44 then [0, 1, 2, 3, 4, 5, 8, 9, 10, 11, 12, 13]
  else if sidx ≤ 46 then [0, 1, 2, 3, 4, 8, 9, 10, 11, 12]
  else [0, 1, 2, 3, 8, 9, 10, 11]

/-- One ENCS for each byte, in order: the codes returned, and the state at the end. -/
def encsInSequence : List Byte → State → List Nat × State
  | [], s => ([], s)
  | b :: bs, s =>
    match exec (.encs b) s with
    | .next t => ((t.res.getD 0) :: (encsInSequence bs t).1, (encsInSequence bs t).2)
    | .fault _ => ([], s)
    | .refused _ => ([], s)

/-- One DECS for each code, in order: the samples returned, and the state at the end. -/
def decsInSequence : List Code → State → List Nat × State
  | [], s => ([], s)
  | c :: cs, s =>
    match exec (.decs c) s with
    | .next t => ((t.res.getD 0) :: (decsInSequence cs t).1, (decsInSequence cs t).2)
    | .fault _ => ([], s)
    | .refused _ => ([], s)

/-- The bytes of a space at the indices 1 to `n - 1`. -/
def bytesAfterFirst (m : Memory) (n : Nat) : List Byte := (List.range' 1 (n - 1)).map (Memory.read m)

/-- The accesses of `ENC n` in order (R33). -/
def encAccesses (n : Nat) : List Access :=
  if n = 0 then []
  else [.readIn 0, .writeOut 0] ++
    (List.range' 1 (n - 1)).flatMap (fun i => .readIn i :: if i % 2 = 0 then [.writeOut (i / 2)] else []) ++
    (if n % 2 = 0 then [.writeOut (n / 2)] else [])

/-- The accesses of `DEC m` in order (R34). -/
def decAccesses (m : Nat) : List Access :=
  if m = 0 then []
  else [.readIn 0, .writeOut 0] ++
    (List.range' 1 (m - 1)).flatMap (fun j => [.readIn j, .writeOut (2 * j - 1), .writeOut (2 * j)])

/-- From `s0`, `k` steps of the machine reach `t`, and BUSY is 1 until then. -/
def busyUntil (s0 : State) (k : Nat) (t : State) : Prop :=
  Host.Core.run Sys2Proof.core k s0 = .next t ∧
    ∀ j, j < k → ∃ u : State, Host.Core.run Sys2Proof.core j s0 = .next u ∧ u.busy = true

/-- What a host read of a field shows: the field's register (R20). -/
def fieldValue (f : StateField) (s : State) : ReadValue :=
  match f with
  | .pred => .pred s.pred
  | .sidx => .sidx s.sidx
  | .initd => .initd s.initd
  | .busy => .busy s.busy

end Sys2Proof.Machine

section

open Sys2Proof Sys2Proof.Machine

/-! ### Encoding -/

/-- R54: the assigned `op` values are 0 to 4 in the source's listing order; 5, 6 and 7 are unassigned; each CODE4 row
stands for the code with its sign and magnitude bits, and IDX_ROM holds its index delta. -/
def Obligations.OpcodeMapFollowsListingOrder : Prop :=
  (∀ b : Byte, encode (.init b) = .cmd 0 b.toNat) ∧
  (∀ b : Byte, encode (.encs b) = .cmd 1 b.toNat) ∧
  (∀ c : Code, encode (.decs c) = .cmd 2 c.toNat) ∧
  (∀ n : Nat, encode (.enc n) = .cmd 3 n) ∧
  (∀ m : Nat, encode (.dec m) = .cmd 4 m) ∧
  (∀ (lenW arg : Nat) (op : OpField), 5 ≤ op.toNat →
    decode lenW (.cmd op arg) = .error (.reservedOp op)) ∧
  (∀ r ∈ codeRowTable, ∃ c : Code, encode r.instr = .code4 c ∧
    c.getLsbD 3 = r.neg ∧ c.getLsbD 2 = r.m2 ∧ c.getLsbD 1 = r.m1 ∧ c.getLsbD 0 = r.m0 ∧ idxRom c = r.indexDelta)

/-- Decoding the encoding of a well-formed instruction gives it back, with every operand at every value. -/
def Obligations.DecodeOfEncodeIsInstruction : Prop :=
  ∀ (lenW : Nat) (i : Instr), i.wellFormed lenW = true → decode lenW (encode i) = .ok i

/-- A word that decodes is the encoding of the instruction it decodes to, and that instruction is well formed: no two
words mean one instruction, and no word means an instruction the interface cannot carry. -/
def Obligations.DecodedWordIsItsEncoding : Prop :=
  ∀ (lenW : Nat) (w : CommandWord) (i : Instr), decode lenW w = .ok i →
    encode i = w ∧ i.wellFormed lenW = true

/-- R55: every code is decoded; a command with `op` 5, 6 or 7, or with an operand bit set too high, is refused when it
is presented, whatever the state. Which reason is named where a command meets several situations of R102 (BUSY = 1, or
an `arg` both too wide for the operand and of `2 ^ LEN_W` or more) is the model's choice, log entry 15. -/
def Obligations.MeaninglessCommandsAreRefused : Prop :=
  (∀ (lenW : Nat) (c : Code), ∃ i, decode lenW (.code4 c) = .ok i) ∧
  ∀ (s : State) (l : Launch) (op : OpField) (arg : Nat) (rest : List HostAct),
    s.inbox = .run l (.cmd op arg) :: rest ∨ s.inbox = .start l (.cmd op arg) :: rest →
    (5 ≤ op.toNat → step s = .refused (.reservedOp op)) ∧
    (op.toNat ≤ 1 → 255 < arg → step s = .refused .operandTooWide) ∧
    (op.toNat = 2 → 15 < arg → step s = .refused .operandTooWide) ∧
    (3 ≤ op.toNat → op.toNat ≤ 4 → 2 ^ s.lenW ≤ arg → step s = .refused .argTooWide)

/-- Words written out from the spec's encodings decode to the instructions they stand for. -/
def Obligations.SampleWordsDecode : Prop :=
  decode 32 (.cmd 0b000#3 128) = .ok (.init 128) ∧
  decode 32 (.cmd 0b001#3 130) = .ok (.encs 130) ∧
  decode 32 (.cmd 0b010#3 7) = .ok (.decs 7) ∧
  decode 32 (.cmd 0b011#3 5) = .ok (.enc 5) ∧
  decode 32 (.cmd 0b100#3 3) = .ok (.dec 3) ∧
  decode 32 (.code4 0b1101#4) = .ok .code13

/-! ### The step -/

/-- When the host's next act presents a word that decodes to `i`, and waits, the step is `exec i` with the act taken
off and the launch parameters in place. -/
def Obligations.StepRunsDecodedInstruction : Prop :=
  ∀ (s : State) (l : Launch) (w : CommandWord) (rest : List HostAct) (i : Instr),
    s.inbox = .run l w :: rest → decode s.lenW w = .ok i →
    step s = exec i { s with inbox := rest, launch := l }

/-- When the host does not wait, a command that is not refused is accepted: BUSY becomes 1, the command is held, and no
register of the quantiser, the packer, the unpacker or the counters has changed yet (R14, R28). -/
def Obligations.StartedCommandIsHeld : Prop :=
  ∀ (s : State) (l : Launch) (w : CommandWord) (rest : List HostAct) (i : Instr),
    s.inbox = .start l w :: rest → decode s.lenW w = .ok i → launchRefusal i { s with launch := l } = none →
    ∃ ms : List Micro, ms ≠ [] ∧
      step s = .next { s with inbox := rest, launch := l, busy := true, res := none, cmd := some i, todo := ms }

/-- A command is refused in the same situations, for the same reason, whether or not the host waits for its result. -/
def Obligations.StartRefusedAsRunIs : Prop :=
  ∀ (s : State) (i : Instr) (r : Refusal), beginCommand i s = .refused r ↔ exec i s = .refused r

/-- R105: whatever is presented while BUSY = 1, a command or a CODE4, is refused, whether or not the host waits for its
result: one that decodes, because the core is busy. That a CODE4 may be presented by itself (log entry 5) and that a
word that does not decode is refused for that reason first (log entry 15) are the model's choices. -/
def Obligations.CommandWhileBusyIsRefused : Prop :=
  ∀ (s : State) (l : Launch) (w : CommandWord) (rest : List HostAct), s.busy = true →
    s.inbox = .run l w :: rest ∨ s.inbox = .start l w :: rest →
    (∃ r, step s = .refused r) ∧
    (∀ i, decode s.lenW w = .ok i → step s = .refused .commandWhileBusy)

/-! ### The ROMs and the shared arithmetic -/

/-- R58: the contents of STEP_ROM, word by word; and R59: exactly 49 words, from 1 to 315, non-decreasing, of sum 3013,
and no word elsewhere (R62). -/
def Obligations.StepRomChecks : Prop :=
  (∀ i : Nat, stepRom i = stepRomContents[i]?) ∧
  (∀ i : Int, (∃ w, stepRom i = some w) ↔ 0 ≤ i ∧ i ≤ 48) ∧
  (∀ (i : Int) (w : Nat), stepRom i = some w → 1 ≤ w ∧ w ≤ 315) ∧
  (∀ (i j : Int) (v w : Nat), i ≤ j → stepRom i = some v → stepRom j = some w → v ≤ w) ∧
  ((List.range 49).map (fun i => (stepRom i).getD 0)).sum = 3013

/-- R61: IDX_ROM is symmetric under the sign bit, and is -1 when m2 = 0 and 2·(m - 3) when m2 = 1. -/
def Obligations.IdxRomClosedForm : Prop :=
  ∀ c : Code, idxRom c = idxRom (c ^^^ 8) ∧
    (c.getLsbD 2 = false → idxRom c = -1) ∧
    (c.getLsbD 2 = true → idxRom c = 2 * (((c.toNat % 8 : Nat) : Int) - 3))

/-- R64: the saturation functions, with idempotence and monotonicity. -/
def Obligations.ClampsSaturate : Prop :=
  (∀ x : Int, (x < 0 → clampP x = 0) ∧ (255 < x → clampP x = 255) ∧ (0 ≤ x → x ≤ 255 → clampP x = x)) ∧
  (∀ x : Int, (x < 0 → clampI x = 0) ∧ (48 < x → clampI x = 48) ∧ (0 ≤ x → x ≤ 48 → clampI x = x)) ∧
  (∀ x : Int, clampP (clampP x) = clampP x ∧ clampI (clampI x) = clampI x) ∧
  (∀ x y : Int, x ≤ y → clampP x ≤ clampP y ∧ clampI x ≤ clampI y)

/-- R74, R76: Pack holds the first code of a pair and writes the byte with the second; PackFlush writes an unpaired code
with a zero high nibble; nothing else changes. -/
def Obligations.PackerWritesCompleteBytes : Prop :=
  ∀ (s : State) (c : Code),
    (s.pkPh = false → pack c s = { s with pkLo := c, pkPh := true } ∧ packFlush s = s) ∧
    (s.pkPh = true →
      ∃ b f : Byte, b.toNat = s.pkLo.toNat + 16 * c.toNat ∧ f.toNat = s.pkLo.toNat ∧
        pack c s =
          { s with outMem := Memory.write s.outMem s.idxO b, idxO := s.idxO + 1, pkPh := false } ∧
        packFlush s =
          { s with outMem := Memory.write s.outMem s.idxO f, idxO := s.idxO + 1, pkPh := false })

/-! ### INIT, ENCS, DECS and the CODE4 rows -/

/-- R67: INIT sets PRED to the sample and SIDX to 0, sets INITD, returns 0, and changes nothing else. -/
def Obligations.InitSeedsState : Prop :=
  ∀ (s : State) (b : Byte), s.busy = false →
    exec (.init b) s =
      .next { s with pred := BitVec.ofInt 11 b.toNat, sidx := BitVec.ofInt 7 0, initd := true, res := some 0 } ∧
    (BitVec.ofInt 11 (b.toNat : Int)).toInt = b.toNat ∧ encode (.init b) = .cmd 0 b.toNat

/-- R68: the code ENCS returns, bit by bit, and the state it leaves; nothing else changes. -/
def Obligations.EncsEncodesSample : Prop :=
  ∀ (s : State) (b : Byte), s.busy = false → s.initd = true → Committed s →
    encode (.encs b) = .cmd 1 b.toNat ∧
    ∃ (step : Nat) (c : Code), stepRom s.sidx.toInt = some step ∧
      let diff := (b.toNat : Int) - s.pred.toInt
      let d2 := diff.natAbs
      let d1 := if step ≤ d2 then d2 - step else d2
      let d0 := if step / 2 ≤ d1 then d1 - step / 2 else d1
      c.getLsbD 3 = decide (diff < 0) ∧
      c.getLsbD 2 = decide (step ≤ d2) ∧
      c.getLsbD 1 = decide (step / 2 ≤ d1) ∧
      c.getLsbD 0 = decide (step / 4 ≤ d0) ∧
      exec (.encs b) s =
        .next (sampleResult (decide (diff < 0))
          (deltaOf step (decide (step ≤ d2)) (decide (step / 2 ≤ d1)) (decide (step / 4 ≤ d0)))
          (idxRom c) c.toNat s)

/-- R69: the sample DECS returns and the state it leaves, for all 16 codes in every committed state; nothing else
changes. -/
def Obligations.DecsDecodesCode : Prop :=
  ∀ (s : State) (c : Code), s.busy = false → s.initd = true → Committed s →
    encode (.decs c) = .cmd 2 c.toNat ∧
    ∃ step : Nat, stepRom s.sidx.toInt = some step ∧
      let delta := deltaOf step (c.getLsbD 2) (c.getLsbD 1) (c.getLsbD 0)
      exec (.decs c) s =
        .next (sampleResult (c.getLsbD 3) delta (idxRom c) (decodedSample (c.getLsbD 3) delta s) s)

/-- Each CODE4 row of the table, code0 to code15: the decoder step with that row's direction, addends and index delta,
nothing else changing; refused while INITD = 0. That a CODE4 may be presented by itself is the model's choice (log
entry 5). -/
def Obligations.CodeRowsDecodeTheirCode : Prop :=
  ∀ r ∈ codeRowTable, ∀ s : State, s.busy = false →
    (s.initd = true → Committed s →
      ∃ step : Nat, stepRom s.sidx.toInt = some step ∧
        let delta := deltaOf step r.m2 r.m1 r.m0
        exec r.instr s = .next (sampleResult r.neg delta r.indexDelta (decodedSample r.neg delta s) s)) ∧
    (s.initd = false → exec r.instr s = .refused .uninitialised)

/-- R72: ENCS and DECS are refused while INITD = 0; INIT needs nothing but BUSY = 0. -/
def Obligations.UninitialisedStateIsRefused : Prop :=
  ∀ s : State, s.busy = false →
    (s.initd = false →
      (∀ b : Byte, exec (.encs b) s = .refused .uninitialised) ∧
      (∀ c : Code, exec (.decs c) s = .refused .uninitialised)) ∧
    (∀ b : Byte, ∃ t : State, exec (.init b) s = .next t ∧ t.initd = true)

/-- R81: a sample step from a committed state ends in a committed state. -/
def Obligations.SampleStepsKeepBounds : Prop :=
  ∀ (s : State), Committed s →
    (∀ b : Byte, ∃ c t, encStep b s = some (c, t) ∧ Committed t) ∧
    (∀ c : Code, ∃ y t, decStep c s = some (y, t) ∧ Committed t ∧ (y.toNat : Int) = t.pred.toInt)

/-- R82: a decoder in the encoder's state, fed the encoder's code, reaches the encoder's new state and outputs the
encoder's new predictor. -/
def Obligations.DecoderFollowsEncoder : Prop :=
  ∀ (s t : State) (b : Byte), Committed s → exec (.encs b) s = .next t →
    ∃ c : Code, t.res = some c.toNat ∧
      exec (.decs c) s = .next { t with res := some t.pred.toInt.toNat } ∧ Committed t

/-- R70: with a step of 1 the two low bits of every code are forced, with 2 or 3 the lowest; and the forced bits move no
predictor: with a step of 1 to 3 the addend of bit 0 is 0, so PRED moves by DELTA with that bit clear. -/
def Obligations.ZeroStepForcesBits : Prop :=
  ∀ (s t : State) (b : Byte), Committed s → exec (.encs b) s = .next t →
    (s.sidx.toInt ≤ 3 →
      ((b.toNat : Int) = s.pred.toInt → t.res = some 3 ∧ t.pred = s.pred) ∧
      (s.pred.toInt < b.toNat → t.res = some 7 ∧ t.pred.toInt = s.pred.toInt + 1) ∧
      ((b.toNat : Int) < s.pred.toInt → t.res = some 15 ∧ t.pred.toInt = s.pred.toInt - 1)) ∧
    (s.sidx.toInt ≤ 8 → ∃ (c : Code) (step : Nat), t.res = some c.toNat ∧ c.getLsbD 0 = true ∧
      stepRom s.sidx.toInt = some step ∧ step / 4 = 0 ∧
      t.pred.toInt = clampP (if c.getLsbD 3
        then s.pred.toInt - deltaOf step (c.getLsbD 2) (c.getLsbD 1) false
        else s.pred.toInt + deltaOf step (c.getLsbD 2) (c.getLsbD 1) false))

/-- R88: the codes ENCS can return are, at each step index, exactly those of the table; DECS accepts every code. -/
def Obligations.EncoderCodesAreTabulated : Prop :=
  ∀ (sidx : Int) (c : Code), 0 ≤ sidx → sidx ≤ 48 →
    ((∃ (s t : State) (b : Byte), Committed s ∧ s.sidx.toInt = sidx ∧ exec (.encs b) s = .next t ∧
        t.res = some c.toNat) ↔ c.toNat ∈ encoderCodes sidx) ∧
    (∀ s : State, Ready s → ∃ t : State, exec (.decs c) s = .next t)

/-- R89: how one sample step moves SIDX; SIDX 0 is reached from 0 or 1 only; after a seed the first ENCS returns 3, 7 or
15 and leaves 0 or 8. -/
def Obligations.StepIndexDynamics : Prop :=
  (∀ (s t : State) (c : Code), Committed s → exec (.decs c) s = .next t →
    t.sidx.toInt = clampI (s.sidx.toInt + idxRom c) ∧
    (c.getLsbD 2 = false → t.sidx.toInt = max 0 (s.sidx.toInt - 1)) ∧
    (c.getLsbD 2 = true → t.sidx.toInt = min 48 (s.sidx.toInt + 2 * (((c.toNat % 8 : Nat) : Int) - 3))) ∧
    (t.sidx.toInt = 0 → s.sidx.toInt ≤ 1)) ∧
  (∀ (s t : State) (b : Byte), Committed s → exec (.encs b) s = .next t →
    ∃ c : Code, t.res = some c.toNat ∧
      t.sidx.toInt = clampI (s.sidx.toInt + idxRom c) ∧
      (c.getLsbD 2 = false → t.sidx.toInt = max 0 (s.sidx.toInt - 1)) ∧
      (c.getLsbD 2 = true → t.sidx.toInt = min 48 (s.sidx.toInt + 2 * (((c.toNat % 8 : Nat) : Int) - 3))) ∧
      (t.sidx.toInt = 0 → s.sidx.toInt ≤ 1)) ∧
  (∀ (s t u : State) (a b : Byte), exec (.init a) s = .next t → exec (.encs b) t = .next u →
    (u.res = some 3 ∨ u.res = some 7 ∨ u.res = some 15) ∧ (u.sidx.toInt = 0 ∨ u.sidx.toInt = 8))

/-! ### ENC and DEC -/

/-- R77: a zero count returns 0 and changes nothing; a result of 0 is that of a zero count only. -/
def Obligations.ZeroCountIsNoOp : Prop :=
  (∀ s : State, s.busy = false →
    exec (.enc 0) s = .next { s with res := some 0 } ∧ exec (.dec 0) s = .next { s with res := some 0 }) ∧
  (∀ (s t : State) (n : Nat), exec (.enc n) s = .next t ∨ exec (.dec n) s = .next t →
    t.res = some 0 → n = 0)

/-- R78: ENC with N >= 1 completes; its result, its counters and the state it leaves. -/
def Obligations.EncCompletes : Prop :=
  ∀ (s : State) (n : Nat), 0 < n → Launchable n (1 + (n - 1 + 1) / 2) s →
    ∃ t : State, exec (.enc n) s = .next t ∧ t.res = some t.idxO ∧ t.idxO = 1 + (n - 1 + 1) / 2 ∧
      (n % 2 = 1 → t.idxO = (n + 1) / 2) ∧ (n % 2 = 0 → t.idxO = n / 2 + 1) ∧
      t.cnt = n ∧ t.idxI = n ∧ t.pkPh = false ∧ t.initd = true ∧ Committed t

/-- R78: DEC with M >= 1 completes; its result, its counters and the state it leaves. No byte value is rejected. -/
def Obligations.DecCompletes : Prop :=
  ∀ (s : State) (m : Nat), 0 < m → Launchable m (2 * m - 1) s →
    ∃ t : State, exec (.dec m) s = .next t ∧ t.res = some t.idxO ∧ t.idxO = 2 * m - 1 ∧
      t.cnt = m ∧ t.idxI = m ∧ t.upPh = false ∧ t.initd = true ∧ Committed t

/-- The frame of ENC: PRED, SIDX, INITD, the packer, the counters, the result and the OUT bytes 0 to result - 1 may
change, and nothing else; the core never writes IN (R29, R73). -/
def Obligations.EncLeavesRestUnchanged : Prop :=
  ∀ (s t : State) (n : Nat), exec (.enc n) s = .next t →
    t = { s with
      pred := t.pred, sidx := t.sidx, initd := t.initd, pkLo := t.pkLo, pkPh := t.pkPh, cnt := t.cnt,
      idxI := t.idxI, idxO := t.idxO, res := t.res, outMem := t.outMem } ∧
    ∀ a : Nat, encLength n ≤ a → Memory.read t.outMem a = Memory.read s.outMem a

/-- The frame of DEC: PRED, SIDX, INITD, the unpacker, the counters, the result and the OUT bytes 0 to result - 1 may
change, and nothing else; the core never writes IN (R29, R75). -/
def Obligations.DecLeavesRestUnchanged : Prop :=
  ∀ (s t : State) (m : Nat), exec (.dec m) s = .next t →
    t = { s with
      pred := t.pred, sidx := t.sidx, initd := t.initd, upHi := t.upHi, upPh := t.upPh, cnt := t.cnt,
      idxI := t.idxI, idxO := t.idxO, res := t.res, outMem := t.outMem } ∧
    ∀ a : Nat, decLength m ≤ a → Memory.read t.outMem a = Memory.read s.outMem a

/-- R83: the length law, for the result and for the number of bytes written (final IDX_O), and the composition on a
buffer of odd and of even length. -/
def Obligations.LengthLaw : Prop :=
  (∀ (s t : State) (n : Nat), 0 < n → exec (.enc n) s = .next t →
    t.res = some (1 + (n - 1 + 1) / 2) ∧ t.idxO = 1 + (n - 1 + 1) / 2) ∧
  (∀ (s t : State) (m : Nat), 0 < m → exec (.dec m) s = .next t →
    t.res = some (1 + (m - 1) * 2) ∧ t.idxO = 1 + (m - 1) * 2) ∧
  (∀ (s t u v : State) (n m : Nat), 0 < n → exec (.enc n) s = .next t → t.res = some m →
    exec (.dec m) u = .next v →
    (n % 2 = 1 → v.res = some n) ∧ (n % 2 = 0 → v.res = some (n + 1)))

/-- R84: the first output byte is the first input byte, in both directions. -/
def Obligations.FirstSampleIdentity : Prop :=
  ∀ (s t : State) (n : Nat), 0 < n → s.outMem.wf = true →
    exec (.enc n) s = .next t ∨ exec (.dec n) s = .next t →
    Memory.read t.outMem 0 = Memory.read s.inMem 0

/-- R91: a buffer of one byte: that byte is the one byte written. -/
def Obligations.SingleByteBuffer : Prop :=
  ∀ (s : State) (x : Byte), s.outMem.wf = true → Launchable 1 1 s → Memory.read s.inMem 0 = x →
    (∃ t, exec (.enc 1) s = .next t ∧ Memory.read t.outMem 0 = x ∧
      t.outMem = Memory.write s.outMem 0 x ∧ t.res = some 1 ∧
      t.pred.toInt = x.toNat ∧ t.sidx.toInt = 0) ∧
    (∃ t, exec (.dec 1) s = .next t ∧ Memory.read t.outMem 0 = x ∧
      t.outMem = Memory.write s.outMem 0 x ∧ t.res = some 1 ∧
      t.pred.toInt = x.toNat ∧ t.sidx.toInt = 0)

/-- R36, R37, and U8: a launch whose result exceeds `OUT_CAP`, whose buffers overlap, or whose count does not fit
`LEN_W` bits is refused. -/
def Obligations.BadBufferLaunchIsRefused : Prop :=
  ∀ (s : State) (n : Nat), s.busy = false →
    (2 ^ s.lenW ≤ n → exec (.enc n) s = .refused .argTooWide ∧ exec (.dec n) s = .refused .argTooWide) ∧
    (n < 2 ^ s.lenW → s.launch.outCap < encLength n → exec (.enc n) s = .refused .outputCapacity) ∧
    (n < 2 ^ s.lenW → s.launch.outCap < decLength n → exec (.dec n) s = .refused .outputCapacity) ∧
    (n < 2 ^ s.lenW → encLength n ≤ s.launch.outCap → overlapping n s.launch = true →
      exec (.enc n) s = .refused .buffersOverlap) ∧
    (n < 2 ^ s.lenW → decLength n ≤ s.launch.outCap → overlapping n s.launch = true →
      exec (.dec n) s = .refused .buffersOverlap) ∧
    (overlapping n s.launch = true ↔
      ∃ i o, s.launch.binding = .oneMemory i o ∧
        ∃ a, i ≤ a ∧ a < i + n ∧ o ≤ a ∧ a < o + s.launch.outCap)

/-- R50, R51, R73: ENC is INIT of the first sample and then ENCS of each further sample: it leaves the state they leave,
and OUT byte j holds the codes of samples 2j - 1 and 2j, the high nibble 0 when sample 2j is not there. -/
def Obligations.EncStreamHoldsEncsCodes : Prop :=
  ∀ (s t u : State) (n : Nat), 0 < n → s.outMem.wf = true → exec (.enc n) s = .next t →
    exec (.init (Memory.read s.inMem 0)) s = .next u →
    let run := encsInSequence (bytesAfterFirst s.inMem n) u
    run.1.length = n - 1 ∧ t.pred = run.2.pred ∧ t.sidx = run.2.sidx ∧ t.initd = run.2.initd ∧
    ∀ j : Nat, 1 ≤ j → j < encLength n →
      (Memory.read t.outMem j).toNat = run.1.getD (2 * j - 2) 0 + 16 * run.1.getD (2 * j - 1) 0

/-- R75, R76: DEC is INIT of the first byte and then DECS of each code, low nibble first: it leaves the state they leave,
and OUT byte i holds the sample of code i. -/
def Obligations.DecSamplesAreDecsSamples : Prop :=
  ∀ (s t u : State) (m : Nat), 0 < m → s.outMem.wf = true → exec (.dec m) s = .next t →
    exec (.init (Memory.read s.inMem 0)) s = .next u →
    let codes := (bytesAfterFirst s.inMem m).flatMap (fun b => [BitVec.ofNat 4 (b.toNat % 16), BitVec.ofNat 4 (b.toNat / 16)])
    let run := decsInSequence codes u
    run.1.length = 2 * (m - 1) ∧ t.pred = run.2.pred ∧ t.sidx = run.2.sidx ∧ t.initd = run.2.initd ∧
    ∀ i : Nat, 1 ≤ i → i < decLength m → (Memory.read t.outMem i).toNat = run.1.getD (i - 1) 0

/-- R85: determinism. ENC and DEC with a non-zero count are functions of the IN bytes and the count, whatever the state
was; ENCS and DECS of PRED, SIDX and the operand; INIT of the operand. -/
def Obligations.ResultsDependOnInputsOnly : Prop :=
  (∀ (s s' t t' : State) (n : Nat), 0 < n → s.outMem.wf = true → s'.outMem.wf = true →
    (∀ a, a < n → Memory.read s.inMem a = Memory.read s'.inMem a) →
    exec (.enc n) s = .next t → exec (.enc n) s' = .next t' →
    t.res = t'.res ∧ t.pred = t'.pred ∧ t.sidx = t'.sidx ∧ t.initd = t'.initd ∧
    ∀ a, a < encLength n → Memory.read t.outMem a = Memory.read t'.outMem a) ∧
  (∀ (s s' t t' : State) (n : Nat), 0 < n → s.outMem.wf = true → s'.outMem.wf = true →
    (∀ a, a < n → Memory.read s.inMem a = Memory.read s'.inMem a) →
    exec (.dec n) s = .next t → exec (.dec n) s' = .next t' →
    t.res = t'.res ∧ t.pred = t'.pred ∧ t.sidx = t'.sidx ∧ t.initd = t'.initd ∧
    ∀ a, a < decLength n → Memory.read t.outMem a = Memory.read t'.outMem a) ∧
  (∀ (s s' t t' : State) (b : Byte), s.pred = s'.pred → s.sidx = s'.sidx →
    exec (.encs b) s = .next t → exec (.encs b) s' = .next t' →
    t.res = t'.res ∧ t.pred = t'.pred ∧ t.sidx = t'.sidx) ∧
  (∀ (s s' t t' : State) (c : Code), s.pred = s'.pred → s.sidx = s'.sidx →
    exec (.decs c) s = .next t → exec (.decs c) s' = .next t' →
    t.res = t'.res ∧ t.pred = t'.pred ∧ t.sidx = t'.sidx) ∧
  (∀ (s s' t t' : State) (b : Byte), exec (.init b) s = .next t → exec (.init b) s' = .next t' →
    t.res = t'.res ∧ t.pred = t'.pred ∧ t.sidx = t'.sidx ∧ t.initd = t'.initd)

/-- R86: DEC of the stream ENC produced gives the first sample and then the encoder's successive predictors; for odd N
the final states agree. The predictor inside ENC after sample i is the one `ENC (i + 1)` ends with. -/
def Obligations.RoundTripFollowsPredictor : Prop :=
  ∀ (s t u v : State) (n : Nat), 0 < n → s.outMem.wf = true → u.outMem.wf = true →
    exec (.enc n) s = .next t →
    (∀ j, j < encLength n → Memory.read u.inMem j = Memory.read t.outMem j) →
    exec (.dec (encLength n)) u = .next v →
    Memory.read v.outMem 0 = Memory.read s.inMem 0 ∧
    (∀ i, 1 ≤ i → i < n →
      ∃ w : State, exec (.enc (i + 1)) s = .next w ∧ ((Memory.read v.outMem i).toNat : Int) = w.pred.toInt) ∧
    (n % 2 = 1 → v.pred = t.pred ∧ v.sidx = t.sidx)

/-- R87: for even N the decoded buffer has one sample more: code 0 decoded in the state after the last sample, and SIDX
falls by 1, saturating at 0. -/
def Obligations.EvenLengthDecodesOneMore : Prop :=
  ∀ (s t u v : State) (n : Nat), 0 < n → n % 2 = 0 → s.outMem.wf = true → u.outMem.wf = true →
    exec (.enc n) s = .next t →
    (∀ j, j < encLength n → Memory.read u.inMem j = Memory.read t.outMem j) →
    exec (.dec (encLength n)) u = .next v →
    t.res = some (n / 2 + 1) ∧ v.res = some (n + 1) ∧
    Memory.read v.outMem 0 = Memory.read s.inMem 0 ∧
    (∀ i, 1 ≤ i → i < n →
      ∃ w : State, exec (.enc (i + 1)) s = .next w ∧ ((Memory.read v.outMem i).toNat : Int) = w.pred.toInt) ∧
    ∃ step : Nat, stepRom t.sidx.toInt = some step ∧
      ((Memory.read v.outMem n).toNat : Int) = clampP (t.pred.toInt + (step / 8 : Nat)) ∧
      v.pred.toInt = clampP (t.pred.toInt + (step / 8 : Nat)) ∧
      v.sidx.toInt = max 0 (t.sidx.toInt - 1)

/-! ### An operation in progress -/

/-- R14, R90: a started command, taken micro-step by micro-step, reaches exactly the state its meaning gives, and BUSY
is 1 until then. The micro-steps beside those of R71 are the model's (log entry 9). -/
def Obligations.MicroStepsReachTheMeaning : Prop :=
  ∀ (i : Instr) (s s0 t : State), s.inbox = [] → Idle s → beginCommand i s = .next s0 → exec i s = .next t →
    ∃ k : Nat, busyUntil s0 k t

/-- R33: the accesses of ENC to IN and OUT, in their order, and no other. -/
def Obligations.EncAccessOrder : Prop :=
  ∀ (n : Nat) (s s0 : State), s.inbox = [] → Idle s → beginCommand (.enc n) s = .next s0 →
    ∃ (k : Nat) (t : State), busyUntil s0 k t ∧ t.busy = false ∧ accessesOf k s0 = encAccesses n

/-- R34: the accesses of DEC to IN and OUT, in their order, and no other. -/
def Obligations.DecAccessOrder : Prop :=
  ∀ (m : Nat) (s s0 : State), s.inbox = [] → Idle s → beginCommand (.dec m) s = .next s0 →
    ∃ (k : Nat) (t : State), busyUntil s0 k t ∧ t.busy = false ∧ accessesOf k s0 = decAccesses m

/-- R35: INIT, ENCS and DECS, and with them the CODE4 rows, make no access to IN or OUT. -/
def Obligations.SampleOperationsTouchNoBuffer : Prop :=
  ∀ (i : Instr) (s s0 : State) (k : Nat), (∀ n, i ≠ .enc n) → (∀ m, i ≠ .dec m) → s.inbox = [] → Idle s →
    beginCommand i s = .next s0 → accessesOf k s0 = []

/-- R71: PRED and SIDX after each of the four micro-steps of the sample step of ENCS and DECS and of the two of INIT, and
that a host read at each of these boundaries returns them. At the two boundaries of an INIT from INITD = 0 it is refused:
that INITD is set only after them is the model's choice (log entry 9). -/
def Obligations.MicroStepsOfSampleOperations : Prop :=
  ∀ (s : State), s.inbox = [] → Idle s →
    (∀ (b : Byte) (s0 : State), beginCommand (.init b) s = .next s0 →
      ∃ u1 u2 : State,
        Host.Core.run Sys2Proof.core 1 s0 = .next u1 ∧ u1.pred.toInt = b.toNat ∧ u1.sidx = s.sidx ∧
        Host.Core.run Sys2Proof.core 2 s0 = .next u2 ∧ u2.pred.toInt = b.toNat ∧ u2.sidx.toInt = 0 ∧
        (s.initd = true → readsShowRegisters u1 ∧ readsShowRegisters u2) ∧
        (s.initd = false → readsAreRefused u1 ∧ readsAreRefused u2)) ∧
    (∀ (i : Instr) (s0 t : State), Committed s → (∃ b, i = .encs b) ∨ (∃ c, i = .decs c) →
      beginCommand i s = .next s0 → exec i s = .next t →
      ∃ (p d : Int) (u1 u2 u3 u4 : State),
        Host.Core.run Sys2Proof.core 1 s0 = .next u1 ∧ u1.pred.toInt = p ∧ u1.sidx = s.sidx ∧
        Host.Core.run Sys2Proof.core 2 s0 = .next u2 ∧ u2.pred.toInt = clampP p ∧ u2.sidx = s.sidx ∧
        Host.Core.run Sys2Proof.core 3 s0 = .next u3 ∧ u3.pred.toInt = clampP p ∧
          u3.sidx.toInt = s.sidx.toInt + d ∧
        Host.Core.run Sys2Proof.core 4 s0 = .next u4 ∧ u4.pred.toInt = clampP p ∧
          u4.sidx.toInt = clampI (s.sidx.toInt + d) ∧
        t.pred = u4.pred ∧ t.sidx = u4.sidx ∧
        readsShowRegisters u1 ∧ readsShowRegisters u2 ∧ readsShowRegisters u3 ∧ readsShowRegisters u4 ∧
        (∃ c : Code, d = idxRom c ∧ (∃ step : Nat, stepRom s.sidx.toInt = some step ∧
          p = if c.getLsbD 3 then s.pred.toInt - deltaOf step (c.getLsbD 2) (c.getLsbD 1) (c.getLsbD 0)
            else s.pred.toInt + deltaOf step (c.getLsbD 2) (c.getLsbD 1) (c.getLsbD 0)) ∧
          (∀ c' : Code, i = .decs c' → c = c') ∧ (∀ b : Byte, i = .encs b → t.res = some c.toNat)))

/-- R42, R39: a micro-step writes at most one byte of OUT, at IDX_O, which then advances by 1, and nothing of IN; when
it makes no write access, OUT stays as it is. That a write of OUT is a micro-step of its own, together with the step of
IDX_O, is the model's choice (log entry 9). -/
def Obligations.MicroStepWritesAtMostOneByte : Prop :=
  ∀ s t : State, microStep s = .next t →
    t.inMem = s.inMem ∧
    (∀ j, nextAccess s = some (.writeOut j) →
      j = s.idxO ∧ t.idxO = s.idxO + 1 ∧ ∃ b, t.outMem = Memory.write s.outMem j b) ∧
    ((∀ j, nextAccess s ≠ some (.writeOut j)) → t.outMem = s.outMem)

/-- R20: a read of one field returns the value its register holds, during an operation too, and changes nothing of the
core; PRED and SIDX are refused while INITD = 0, INITD and BUSY never. -/
def Obligations.StateReadReturnsRegister : Prop :=
  ∀ (s : State) (f : StateField) (rest : List HostAct), s.inbox = .readState f :: rest →
    (s.initd = true ∨ f = .initd ∨ f = .busy →
      step s = .next { s with inbox := rest, rdata := some (fieldValue f s) }) ∧
    (s.initd = false → f = .pred ∨ f = .sidx → step s = .refused .uninitialised)

/-- R42 (a), (c): a host read of a byte of OUT returns what OUT holds then, idle or during an operation, and changes
nothing of the core; after a micro-step that does not write that byte it returns the byte that stood before. Where the value is held (log entry 11), that a read during an operation sees the writes done so far
(log entry 16), and that any index may be read (log entry 17) are the model's choices. -/
def Obligations.OutReadReturnsByte : Prop :=
  (∀ (s : State) (j : Nat) (rest : List HostAct), s.inbox = .readOut j :: rest →
    step s = .next { s with inbox := rest, rdata := some (.outByte (Memory.read s.outMem j)) }) ∧
  (∀ (s u : State) (j : Nat) (rest : List HostAct), microStep s = .next u → nextAccess s ≠ some (.writeOut j) →
    step { u with inbox := .readOut j :: rest } =
      .next { u with inbox := rest, rdata := some (.outByte (Memory.read s.outMem j)) })

/-- R108: changing a byte of IN that the ENC or DEC in progress reads is refused; every other write of the host to IN is
done. -/
def Obligations.InputMustStayStable : Prop :=
  ∀ (s : State) (i : Nat) (b : Byte) (rest : List HostAct), s.inbox = .writeIn i b :: rest →
    (∀ n, s.cmd = some (.enc n) ∨ s.cmd = some (.dec n) → i < n → b ≠ Memory.read s.inMem i →
      step s = .refused .inputChanged) ∧
    ((∀ n, s.cmd = some (.enc n) ∨ s.cmd = some (.dec n) → n ≤ i ∨ b = Memory.read s.inMem i) →
      step s = .next { s with inbox := rest, inMem := Memory.write s.inMem i b })

/-- R103: reset. INITD, BUSY, PK_PH and UP_PH become 0, an operation in progress is abandoned and returns no result, and
IN and OUT keep what they hold, whatever the state. -/
def Obligations.ResetEventLeavesSpecValues : Prop :=
  ∀ (s : State) (rest : List HostAct), s.inbox = .reset :: rest →
    ∃ t : State, step s = .next t ∧ t.initd = false ∧ t.busy = false ∧ t.pkPh = false ∧ t.upPh = false ∧
      t.cmd = none ∧ t.todo = [] ∧ t.res = none ∧ t.inMem = s.inMem ∧ t.outMem = s.outMem ∧
      (∀ f, readField f t = none ↔ f = .pred ∨ f = .sidx)

/-- The table of R27, as far as it gives values: INITD, BUSY, PK_PH and UP_PH are 0 after reset. -/
def Obligations.ResetStateHasSpecValues : Prop :=
  State.reset.initd = false ∧ State.reset.busy = false ∧ State.reset.pkPh = false ∧ State.reset.upPh = false

/-- R13: nothing clears INITD but reset. -/
def Obligations.OnlyResetClearsInitd : Prop :=
  ∀ s t : State, step s = .next t → s.initd = true → (∀ rest, s.inbox ≠ .reset :: rest) → t.initd = true

/-- R21: no host act but a command or reset, and no step of an idle core, changes PRED, SIDX or INITD. -/
def Obligations.HostCannotWriteStateRegister : Prop :=
  ∀ s t : State, step s = .next t → Idle s →
    (∀ l w rest, s.inbox ≠ .run l w :: rest) → (∀ rest, s.inbox ≠ .reset :: rest) →
    t.pred = s.pred ∧ t.sidx = s.sidx ∧ t.initd = s.initd ∧ t.outMem = s.outMem ∧ t.lenW = s.lenW

/-! ### Invariants -/

/-- The invariant holds right after reset. Its clauses about PRED, SIDX and the counters rest there on the model's reset
values (log entry 4). -/
def Obligations.ResetMeetsInvariant : Prop := Inv State.reset

/-- Every step keeps the invariant: canonical spaces, transient ranges of PRED and SIDX, counters, and, when the core is
idle and initialised, a committed state register. Where the host's act is reset, the clauses about PRED, SIDX and the
counters rest on the values the model gives the registers there (log entries 4 and 14). -/
def Obligations.StepKeepsInvariant : Prop :=
  ∀ s t : State, Inv s → step s = .next t → Inv t

/-- R62, R92: where the invariant holds no step faults: STEP_ROM is never addressed outside 0 to 48. -/
def Obligations.StepNeverFaults : Prop :=
  ∀ s : State, Inv s → ∀ f : Fault, step s ≠ .fault f

/-- R23: in every run from reset, whatever the host does and whatever IN holds, PRED and SIDX are committed whenever
BUSY = 0 and INITD = 1. -/
def Obligations.CommittedStateInEveryRun : Prop :=
  ∀ (acts : List HostAct) (m : Memory) (lenW k : Nat) (t : State), m.wf = true →
    Host.Core.run Sys2Proof.core k { State.reset with inbox := acts, inMem := m, lenW := lenW } = .next t →
    t.busy = false → t.initd = true → Committed t

end
end

