-- ==== Sys2Proof/Laws/Memory.lean ====
section
/-! SUPPORT. Memory.lean: read after write over a byte space, and its canonical form under every write. -/

namespace Sys2Proof.Machine

theorem read_write_same (m : Memory) (a : Nat) (v : Byte) (lo : Nat) (h : Memory.wfFrom lo m = true) :
    Memory.read (Memory.write m a v) a = v := by
  induction m generalizing lo with
  | nil => by_cases hv : v = Config.unwrittenByte <;> simp [Memory.write, Memory.read, hv]
  | cons c m ih =>
    obtain ⟨k, w⟩ := c
    simp only [Memory.wfFrom, Bool.and_eq_true, decide_eq_true_eq] at h
    have above : ∀ (l : Memory) (j : Nat), Memory.wfFrom j l = true → ∀ b, b < j →
        Memory.read l b = Config.unwrittenByte := by
      intro l
      induction l with
      | nil => intros; rfl
      | cons d l ihl =>
        intro j hj b hb
        obtain ⟨k', w'⟩ := d
        simp only [Memory.wfFrom, Bool.and_eq_true, decide_eq_true_eq] at hj
        have hne : k' ≠ b := by omega
        simpa [Memory.read, hne] using ihl _ hj.2 b (by omega)
    unfold Memory.write
    by_cases h1 : a < k
    · have hne : k ≠ a := by omega
      have hm := above m _ h.2 a (by omega)
      by_cases hv : v = Config.unwrittenByte <;> simp [h1, hv, Memory.read, hne, hm]
    · by_cases h2 : a = k
      · subst h2
        have hm := above m _ h.2 a (by omega)
        by_cases hv : v = Config.unwrittenByte <;> simp [hv, Memory.read, hm]
      · have hne : k ≠ a := by omega
        simpa [h1, h2, Memory.read, hne] using ih _ h.2

theorem read_write_other (m : Memory) (a b : Nat) (v : Byte) (hab : b ≠ a) :
    Memory.read (Memory.write m a v) b = Memory.read m b := by
  induction m with
  | nil =>
    by_cases hv : v = Config.unwrittenByte <;> simp [Memory.write, Memory.read, hv, hab.symm]
  | cons c m ih =>
    obtain ⟨k, w⟩ := c
    unfold Memory.write
    by_cases h1 : a < k
    · by_cases hv : v = Config.unwrittenByte <;> simp [h1, hv, Memory.read, hab.symm]
    · by_cases h2 : a = k
      · subst h2
        by_cases hv : v = Config.unwrittenByte <;> simp [hv, Memory.read, hab.symm]
      · simp [h1, h2, Memory.read, ih]

theorem write_wfFrom (m : Memory) (a : Nat) (v : Byte) (lo : Nat) (hlo : lo ≤ a)
    (h : Memory.wfFrom lo m = true) : Memory.wfFrom lo (Memory.write m a v) = true := by
  induction m generalizing lo with
  | nil => by_cases hv : v = Config.unwrittenByte <;> simp [Memory.write, Memory.wfFrom, hv, hlo]
  | cons c m ih =>
    obtain ⟨k, w⟩ := c
    simp only [Memory.wfFrom, Bool.and_eq_true, decide_eq_true_eq] at h
    unfold Memory.write
    by_cases h1 : a < k
    · by_cases hv : v = Config.unwrittenByte
      · simp [h1, hv, Memory.wfFrom, h]
      · simp [h1, hv, Memory.wfFrom, hlo, h]
    · by_cases h2 : a = k
      · subst h2
        by_cases hv : v = Config.unwrittenByte
        · have weaken : ∀ (l : Memory) (i j : Nat), i ≤ j → Memory.wfFrom j l = true →
              Memory.wfFrom i l = true := by
            intro l i j hij hl
            cases l with
            | nil => rfl
            | cons d l =>
              simp only [Memory.wfFrom, Bool.and_eq_true, decide_eq_true_eq] at hl ⊢
              exact ⟨⟨by omega, hl.1.2⟩, hl.2⟩
          simpa [hv] using weaken m lo (a + 1) (by omega) h.2
        · simp [hv, Memory.wfFrom, hlo, h]
      · have := ih (k + 1) (by omega) h.2
        simp [h1, h2, Memory.wfFrom, h, this]

/-- Every memory operation keeps the canonical form: a write is the only one. -/
theorem write_wf (m : Memory) (a : Nat) (v : Byte) (h : Memory.wf m = true) :
    Memory.wf (Memory.write m a v) = true :=
  write_wfFrom m a v 0 (Nat.zero_le a) h

theorem read_write (m : Memory) (a b : Nat) (v : Byte) (h : Memory.wf m = true) :
    Memory.read (Memory.write m a v) b = if b = a then v else Memory.read m b := by
  by_cases hab : b = a
  · simp [hab, read_write_same m a v 0 h]
  · simp [hab, read_write_other m a b v hab]

end Sys2Proof.Machine
end

