-- ==== Sys2Proof/Laws/Operands.lean ====
section
/-! SUPPORT. Operands.lean: what the ROMs and the shared arithmetic answer, for proofs to cite instead of unfolding. -/

namespace Sys2Proof.Machine

theorem stepTable_length : stepTable.length = 49 := by decide

/-- STEP_ROM has a word exactly at 0 to 48, and every word is between 1 and 315 (R58, R59). -/
theorem stepRom_eq_some {i : Int} {w : Nat} (h : stepRom i = some w) :
    0 ≤ i ∧ i ≤ 48 ∧ 1 ≤ w ∧ w ≤ 315 := by
  have words : ∀ x ∈ stepTable, 1 ≤ x.toNat ∧ x.toNat ≤ 315 := by decide
  unfold stepRom at h
  split at h
  · obtain ⟨x, hx, rfl⟩ := Option.map_eq_some_iff.mp h
    obtain ⟨hlt, -⟩ := List.getElem?_eq_some_iff.mp hx
    have := words x (List.mem_of_getElem? hx)
    rw [stepTable_length] at hlt
    omega
  · cases h

theorem stepRom_isSome {i : Int} (h0 : 0 ≤ i) (h1 : i ≤ 48) : ∃ w, stepRom i = some w := by
  have hlt : i.toNat < stepTable.length := by rw [stepTable_length]; omega
  exact ⟨(stepTable[i.toNat]).toNat, by simp [stepRom, h0, List.getElem?_eq_getElem hlt]⟩

theorem idxRom_range (c : Code) : -1 ≤ idxRom c ∧ idxRom c ≤ 8 := by
  revert c; decide

theorem clampP_range (x : Int) : 0 ≤ clampP x ∧ clampP x ≤ 255 := by
  unfold clampP; omega

theorem clampI_range (x : Int) : 0 ≤ clampI x ∧ clampI x ≤ 48 := by
  unfold clampI; omega

theorem clampP_of_range {x : Int} (h0 : 0 ≤ x) (h1 : x ≤ 255) : clampP x = x := by
  unfold clampP; omega

theorem clampI_of_range {x : Int} (h0 : 0 ≤ x) (h1 : x ≤ 48) : clampI x = x := by
  unfold clampI; omega

theorem codeDelta_le (step : Nat) (c : Code) (h : step ≤ 315) : codeDelta step c ≤ 589 := by
  have h3 : step >>> 3 ≤ 39 := by rw [Nat.shiftRight_eq_div_pow]; omega
  have h1 : step >>> 1 ≤ 157 := by rw [Nat.shiftRight_eq_div_pow]; omega
  have h2 : step >>> 2 ≤ 78 := by rw [Nat.shiftRight_eq_div_pow]; omega
  unfold codeDelta selected
  split <;> split <;> split <;> omega

theorem quantiseBit_step (bit : Code) (q : Quantiser) : (quantiseBit bit q).step = q.step / 2 := by
  unfold quantiseBit; split <;> simp [Nat.shiftRight_eq_div_pow]

theorem quantiseBit_delta_le (bit : Code) (q : Quantiser) : (quantiseBit bit q).delta ≤ q.delta + q.step := by
  unfold quantiseBit; split <;> simp

/-- The encoder's delta stays in the decoder's range (R65, R66). -/
theorem quantise_delta_le (p : Int) (step : Nat) (b : Byte) (h : step ≤ 315) : (quantise p step b).delta ≤ 589 := by
  have h4 := quantiseBit_delta_le 4 (quantiserStart p step b)
  have h2 := quantiseBit_delta_le 2 (quantiseBit 4 (quantiserStart p step b))
  have h1 := quantiseBit_delta_le 1 (quantiseBit 2 (quantiseBit 4 (quantiserStart p step b)))
  simp only [quantiseBit_step] at h2 h1
  have hs : (quantiserStart p step b).step = step := rfl
  have hd : (quantiserStart p step b).delta = step / 8 := Nat.shiftRight_eq_div_pow step 3
  rw [hs] at h4 h2 h1
  rw [hd] at h4
  unfold quantise
  omega

theorem moved_range {p : Int} {c : Code} {d : Nat} (h0 : 0 ≤ p) (h1 : p ≤ 255) (hd : d ≤ 589) :
    -589 ≤ moved p c d ∧ moved p c d ≤ 844 := by
  unfold moved; split <;> omega

/-- A packed byte taken apart gives its two codes back (R76). -/
theorem unpack_packedByte (lo hi : Code) :
    lowNibble (packedByte lo hi) = lo ∧ highNibble (packedByte lo hi) = hi := by
  revert lo hi; decide

end Sys2Proof.Machine
end

