-- ==== Sys2Proof/Laws/State.lean ====
section
/-! SUPPORT. State.lean: one lemma per field of State per named update, so that no proof unfolds a record update. -/

namespace Sys2Proof.Machine

@[simp] theorem setPred_pred (x : Int) (s : State) : (setPred x s).pred = BitVec.ofInt 11 x := rfl
@[simp] theorem setPred_sidx (x : Int) (s : State) : (setPred x s).sidx = s.sidx := rfl
@[simp] theorem setPred_initd (x : Int) (s : State) : (setPred x s).initd = s.initd := rfl
@[simp] theorem setPred_busy (x : Int) (s : State) : (setPred x s).busy = s.busy := rfl
@[simp] theorem setPred_pkLo (x : Int) (s : State) : (setPred x s).pkLo = s.pkLo := rfl
@[simp] theorem setPred_pkPh (x : Int) (s : State) : (setPred x s).pkPh = s.pkPh := rfl
@[simp] theorem setPred_upHi (x : Int) (s : State) : (setPred x s).upHi = s.upHi := rfl
@[simp] theorem setPred_upPh (x : Int) (s : State) : (setPred x s).upPh = s.upPh := rfl
@[simp] theorem setPred_cnt (x : Int) (s : State) : (setPred x s).cnt = s.cnt := rfl
@[simp] theorem setPred_idxI (x : Int) (s : State) : (setPred x s).idxI = s.idxI := rfl
@[simp] theorem setPred_idxO (x : Int) (s : State) : (setPred x s).idxO = s.idxO := rfl
@[simp] theorem setPred_cmd (x : Int) (s : State) : (setPred x s).cmd = s.cmd := rfl
@[simp] theorem setPred_todo (x : Int) (s : State) : (setPred x s).todo = s.todo := rfl
@[simp] theorem setPred_res (x : Int) (s : State) : (setPred x s).res = s.res := rfl
@[simp] theorem setPred_lenW (x : Int) (s : State) : (setPred x s).lenW = s.lenW := rfl
@[simp] theorem setPred_launch (x : Int) (s : State) : (setPred x s).launch = s.launch := rfl
@[simp] theorem setPred_inMem (x : Int) (s : State) : (setPred x s).inMem = s.inMem := rfl
@[simp] theorem setPred_outMem (x : Int) (s : State) : (setPred x s).outMem = s.outMem := rfl
@[simp] theorem setPred_rdata (x : Int) (s : State) : (setPred x s).rdata = s.rdata := rfl
@[simp] theorem setPred_inbox (x : Int) (s : State) : (setPred x s).inbox = s.inbox := rfl

@[simp] theorem setSidx_pred (x : Int) (s : State) : (setSidx x s).pred = s.pred := rfl
@[simp] theorem setSidx_sidx (x : Int) (s : State) : (setSidx x s).sidx = BitVec.ofInt 7 x := rfl
@[simp] theorem setSidx_initd (x : Int) (s : State) : (setSidx x s).initd = s.initd := rfl
@[simp] theorem setSidx_busy (x : Int) (s : State) : (setSidx x s).busy = s.busy := rfl
@[simp] theorem setSidx_pkLo (x : Int) (s : State) : (setSidx x s).pkLo = s.pkLo := rfl
@[simp] theorem setSidx_pkPh (x : Int) (s : State) : (setSidx x s).pkPh = s.pkPh := rfl
@[simp] theorem setSidx_upHi (x : Int) (s : State) : (setSidx x s).upHi = s.upHi := rfl
@[simp] theorem setSidx_upPh (x : Int) (s : State) : (setSidx x s).upPh = s.upPh := rfl
@[simp] theorem setSidx_cnt (x : Int) (s : State) : (setSidx x s).cnt = s.cnt := rfl
@[simp] theorem setSidx_idxI (x : Int) (s : State) : (setSidx x s).idxI = s.idxI := rfl
@[simp] theorem setSidx_idxO (x : Int) (s : State) : (setSidx x s).idxO = s.idxO := rfl
@[simp] theorem setSidx_cmd (x : Int) (s : State) : (setSidx x s).cmd = s.cmd := rfl
@[simp] theorem setSidx_todo (x : Int) (s : State) : (setSidx x s).todo = s.todo := rfl
@[simp] theorem setSidx_res (x : Int) (s : State) : (setSidx x s).res = s.res := rfl
@[simp] theorem setSidx_lenW (x : Int) (s : State) : (setSidx x s).lenW = s.lenW := rfl
@[simp] theorem setSidx_launch (x : Int) (s : State) : (setSidx x s).launch = s.launch := rfl
@[simp] theorem setSidx_inMem (x : Int) (s : State) : (setSidx x s).inMem = s.inMem := rfl
@[simp] theorem setSidx_outMem (x : Int) (s : State) : (setSidx x s).outMem = s.outMem := rfl
@[simp] theorem setSidx_rdata (x : Int) (s : State) : (setSidx x s).rdata = s.rdata := rfl
@[simp] theorem setSidx_inbox (x : Int) (s : State) : (setSidx x s).inbox = s.inbox := rfl

@[simp] theorem setInitd_pred (s : State) : (setInitd s).pred = s.pred := rfl
@[simp] theorem setInitd_sidx (s : State) : (setInitd s).sidx = s.sidx := rfl
@[simp] theorem setInitd_initd (s : State) : (setInitd s).initd = true := rfl
@[simp] theorem setInitd_busy (s : State) : (setInitd s).busy = s.busy := rfl
@[simp] theorem setInitd_pkLo (s : State) : (setInitd s).pkLo = s.pkLo := rfl
@[simp] theorem setInitd_pkPh (s : State) : (setInitd s).pkPh = s.pkPh := rfl
@[simp] theorem setInitd_upHi (s : State) : (setInitd s).upHi = s.upHi := rfl
@[simp] theorem setInitd_upPh (s : State) : (setInitd s).upPh = s.upPh := rfl
@[simp] theorem setInitd_cnt (s : State) : (setInitd s).cnt = s.cnt := rfl
@[simp] theorem setInitd_idxI (s : State) : (setInitd s).idxI = s.idxI := rfl
@[simp] theorem setInitd_idxO (s : State) : (setInitd s).idxO = s.idxO := rfl
@[simp] theorem setInitd_cmd (s : State) : (setInitd s).cmd = s.cmd := rfl
@[simp] theorem setInitd_todo (s : State) : (setInitd s).todo = s.todo := rfl
@[simp] theorem setInitd_res (s : State) : (setInitd s).res = s.res := rfl
@[simp] theorem setInitd_lenW (s : State) : (setInitd s).lenW = s.lenW := rfl
@[simp] theorem setInitd_launch (s : State) : (setInitd s).launch = s.launch := rfl
@[simp] theorem setInitd_inMem (s : State) : (setInitd s).inMem = s.inMem := rfl
@[simp] theorem setInitd_outMem (s : State) : (setInitd s).outMem = s.outMem := rfl
@[simp] theorem setInitd_rdata (s : State) : (setInitd s).rdata = s.rdata := rfl
@[simp] theorem setInitd_inbox (s : State) : (setInitd s).inbox = s.inbox := rfl

@[simp] theorem movePred_pred (c : Code) (d : Nat) (s : State) : (movePred c d s).pred = BitVec.ofInt 11 (moved s.pred.toInt c d) := rfl
@[simp] theorem movePred_sidx (c : Code) (d : Nat) (s : State) : (movePred c d s).sidx = s.sidx := rfl
@[simp] theorem movePred_initd (c : Code) (d : Nat) (s : State) : (movePred c d s).initd = s.initd := rfl
@[simp] theorem movePred_busy (c : Code) (d : Nat) (s : State) : (movePred c d s).busy = s.busy := rfl
@[simp] theorem movePred_pkLo (c : Code) (d : Nat) (s : State) : (movePred c d s).pkLo = s.pkLo := rfl
@[simp] theorem movePred_pkPh (c : Code) (d : Nat) (s : State) : (movePred c d s).pkPh = s.pkPh := rfl
@[simp] theorem movePred_upHi (c : Code) (d : Nat) (s : State) : (movePred c d s).upHi = s.upHi := rfl
@[simp] theorem movePred_upPh (c : Code) (d : Nat) (s : State) : (movePred c d s).upPh = s.upPh := rfl
@[simp] theorem movePred_cnt (c : Code) (d : Nat) (s : State) : (movePred c d s).cnt = s.cnt := rfl
@[simp] theorem movePred_idxI (c : Code) (d : Nat) (s : State) : (movePred c d s).idxI = s.idxI := rfl
@[simp] theorem movePred_idxO (c : Code) (d : Nat) (s : State) : (movePred c d s).idxO = s.idxO := rfl
@[simp] theorem movePred_cmd (c : Code) (d : Nat) (s : State) : (movePred c d s).cmd = s.cmd := rfl
@[simp] theorem movePred_todo (c : Code) (d : Nat) (s : State) : (movePred c d s).todo = s.todo := rfl
@[simp] theorem movePred_res (c : Code) (d : Nat) (s : State) : (movePred c d s).res = s.res := rfl
@[simp] theorem movePred_lenW (c : Code) (d : Nat) (s : State) : (movePred c d s).lenW = s.lenW := rfl
@[simp] theorem movePred_launch (c : Code) (d : Nat) (s : State) : (movePred c d s).launch = s.launch := rfl
@[simp] theorem movePred_inMem (c : Code) (d : Nat) (s : State) : (movePred c d s).inMem = s.inMem := rfl
@[simp] theorem movePred_outMem (c : Code) (d : Nat) (s : State) : (movePred c d s).outMem = s.outMem := rfl
@[simp] theorem movePred_rdata (c : Code) (d : Nat) (s : State) : (movePred c d s).rdata = s.rdata := rfl
@[simp] theorem movePred_inbox (c : Code) (d : Nat) (s : State) : (movePred c d s).inbox = s.inbox := rfl

@[simp] theorem clampPred_pred (s : State) : (clampPred s).pred = BitVec.ofInt 11 (clampP s.pred.toInt) := rfl
@[simp] theorem clampPred_sidx (s : State) : (clampPred s).sidx = s.sidx := rfl
@[simp] theorem clampPred_initd (s : State) : (clampPred s).initd = s.initd := rfl
@[simp] theorem clampPred_busy (s : State) : (clampPred s).busy = s.busy := rfl
@[simp] theorem clampPred_pkLo (s : State) : (clampPred s).pkLo = s.pkLo := rfl
@[simp] theorem clampPred_pkPh (s : State) : (clampPred s).pkPh = s.pkPh := rfl
@[simp] theorem clampPred_upHi (s : State) : (clampPred s).upHi = s.upHi := rfl
@[simp] theorem clampPred_upPh (s : State) : (clampPred s).upPh = s.upPh := rfl
@[simp] theorem clampPred_cnt (s : State) : (clampPred s).cnt = s.cnt := rfl
@[simp] theorem clampPred_idxI (s : State) : (clampPred s).idxI = s.idxI := rfl
@[simp] theorem clampPred_idxO (s : State) : (clampPred s).idxO = s.idxO := rfl
@[simp] theorem clampPred_cmd (s : State) : (clampPred s).cmd = s.cmd := rfl
@[simp] theorem clampPred_todo (s : State) : (clampPred s).todo = s.todo := rfl
@[simp] theorem clampPred_res (s : State) : (clampPred s).res = s.res := rfl
@[simp] theorem clampPred_lenW (s : State) : (clampPred s).lenW = s.lenW := rfl
@[simp] theorem clampPred_launch (s : State) : (clampPred s).launch = s.launch := rfl
@[simp] theorem clampPred_inMem (s : State) : (clampPred s).inMem = s.inMem := rfl
@[simp] theorem clampPred_outMem (s : State) : (clampPred s).outMem = s.outMem := rfl
@[simp] theorem clampPred_rdata (s : State) : (clampPred s).rdata = s.rdata := rfl
@[simp] theorem clampPred_inbox (s : State) : (clampPred s).inbox = s.inbox := rfl

@[simp] theorem adjustSidx_pred (c : Code) (s : State) : (adjustSidx c s).pred = s.pred := rfl
@[simp] theorem adjustSidx_sidx (c : Code) (s : State) : (adjustSidx c s).sidx = BitVec.ofInt 7 (s.sidx.toInt + idxRom c) := rfl
@[simp] theorem adjustSidx_initd (c : Code) (s : State) : (adjustSidx c s).initd = s.initd := rfl
@[simp] theorem adjustSidx_busy (c : Code) (s : State) : (adjustSidx c s).busy = s.busy := rfl
@[simp] theorem adjustSidx_pkLo (c : Code) (s : State) : (adjustSidx c s).pkLo = s.pkLo := rfl
@[simp] theorem adjustSidx_pkPh (c : Code) (s : State) : (adjustSidx c s).pkPh = s.pkPh := rfl
@[simp] theorem adjustSidx_upHi (c : Code) (s : State) : (adjustSidx c s).upHi = s.upHi := rfl
@[simp] theorem adjustSidx_upPh (c : Code) (s : State) : (adjustSidx c s).upPh = s.upPh := rfl
@[simp] theorem adjustSidx_cnt (c : Code) (s : State) : (adjustSidx c s).cnt = s.cnt := rfl
@[simp] theorem adjustSidx_idxI (c : Code) (s : State) : (adjustSidx c s).idxI = s.idxI := rfl
@[simp] theorem adjustSidx_idxO (c : Code) (s : State) : (adjustSidx c s).idxO = s.idxO := rfl
@[simp] theorem adjustSidx_cmd (c : Code) (s : State) : (adjustSidx c s).cmd = s.cmd := rfl
@[simp] theorem adjustSidx_todo (c : Code) (s : State) : (adjustSidx c s).todo = s.todo := rfl
@[simp] theorem adjustSidx_res (c : Code) (s : State) : (adjustSidx c s).res = s.res := rfl
@[simp] theorem adjustSidx_lenW (c : Code) (s : State) : (adjustSidx c s).lenW = s.lenW := rfl
@[simp] theorem adjustSidx_launch (c : Code) (s : State) : (adjustSidx c s).launch = s.launch := rfl
@[simp] theorem adjustSidx_inMem (c : Code) (s : State) : (adjustSidx c s).inMem = s.inMem := rfl
@[simp] theorem adjustSidx_outMem (c : Code) (s : State) : (adjustSidx c s).outMem = s.outMem := rfl
@[simp] theorem adjustSidx_rdata (c : Code) (s : State) : (adjustSidx c s).rdata = s.rdata := rfl
@[simp] theorem adjustSidx_inbox (c : Code) (s : State) : (adjustSidx c s).inbox = s.inbox := rfl

@[simp] theorem clampSidx_pred (s : State) : (clampSidx s).pred = s.pred := rfl
@[simp] theorem clampSidx_sidx (s : State) : (clampSidx s).sidx = BitVec.ofInt 7 (clampI s.sidx.toInt) := rfl
@[simp] theorem clampSidx_initd (s : State) : (clampSidx s).initd = s.initd := rfl
@[simp] theorem clampSidx_busy (s : State) : (clampSidx s).busy = s.busy := rfl
@[simp] theorem clampSidx_pkLo (s : State) : (clampSidx s).pkLo = s.pkLo := rfl
@[simp] theorem clampSidx_pkPh (s : State) : (clampSidx s).pkPh = s.pkPh := rfl
@[simp] theorem clampSidx_upHi (s : State) : (clampSidx s).upHi = s.upHi := rfl
@[simp] theorem clampSidx_upPh (s : State) : (clampSidx s).upPh = s.upPh := rfl
@[simp] theorem clampSidx_cnt (s : State) : (clampSidx s).cnt = s.cnt := rfl
@[simp] theorem clampSidx_idxI (s : State) : (clampSidx s).idxI = s.idxI := rfl
@[simp] theorem clampSidx_idxO (s : State) : (clampSidx s).idxO = s.idxO := rfl
@[simp] theorem clampSidx_cmd (s : State) : (clampSidx s).cmd = s.cmd := rfl
@[simp] theorem clampSidx_todo (s : State) : (clampSidx s).todo = s.todo := rfl
@[simp] theorem clampSidx_res (s : State) : (clampSidx s).res = s.res := rfl
@[simp] theorem clampSidx_lenW (s : State) : (clampSidx s).lenW = s.lenW := rfl
@[simp] theorem clampSidx_launch (s : State) : (clampSidx s).launch = s.launch := rfl
@[simp] theorem clampSidx_inMem (s : State) : (clampSidx s).inMem = s.inMem := rfl
@[simp] theorem clampSidx_outMem (s : State) : (clampSidx s).outMem = s.outMem := rfl
@[simp] theorem clampSidx_rdata (s : State) : (clampSidx s).rdata = s.rdata := rfl
@[simp] theorem clampSidx_inbox (s : State) : (clampSidx s).inbox = s.inbox := rfl

@[simp] theorem seed_pred (b : Byte) (s : State) : (seed b s).pred = BitVec.ofInt 11 b.toNat := rfl
@[simp] theorem seed_sidx (b : Byte) (s : State) : (seed b s).sidx = BitVec.ofInt 7 0 := rfl
@[simp] theorem seed_initd (b : Byte) (s : State) : (seed b s).initd = true := rfl
@[simp] theorem seed_busy (b : Byte) (s : State) : (seed b s).busy = s.busy := rfl
@[simp] theorem seed_pkLo (b : Byte) (s : State) : (seed b s).pkLo = s.pkLo := rfl
@[simp] theorem seed_pkPh (b : Byte) (s : State) : (seed b s).pkPh = s.pkPh := rfl
@[simp] theorem seed_upHi (b : Byte) (s : State) : (seed b s).upHi = s.upHi := rfl
@[simp] theorem seed_upPh (b : Byte) (s : State) : (seed b s).upPh = s.upPh := rfl
@[simp] theorem seed_cnt (b : Byte) (s : State) : (seed b s).cnt = s.cnt := rfl
@[simp] theorem seed_idxI (b : Byte) (s : State) : (seed b s).idxI = s.idxI := rfl
@[simp] theorem seed_idxO (b : Byte) (s : State) : (seed b s).idxO = s.idxO := rfl
@[simp] theorem seed_cmd (b : Byte) (s : State) : (seed b s).cmd = s.cmd := rfl
@[simp] theorem seed_todo (b : Byte) (s : State) : (seed b s).todo = s.todo := rfl
@[simp] theorem seed_res (b : Byte) (s : State) : (seed b s).res = s.res := rfl
@[simp] theorem seed_lenW (b : Byte) (s : State) : (seed b s).lenW = s.lenW := rfl
@[simp] theorem seed_launch (b : Byte) (s : State) : (seed b s).launch = s.launch := rfl
@[simp] theorem seed_inMem (b : Byte) (s : State) : (seed b s).inMem = s.inMem := rfl
@[simp] theorem seed_outMem (b : Byte) (s : State) : (seed b s).outMem = s.outMem := rfl
@[simp] theorem seed_rdata (b : Byte) (s : State) : (seed b s).rdata = s.rdata := rfl
@[simp] theorem seed_inbox (b : Byte) (s : State) : (seed b s).inbox = s.inbox := rfl

@[simp] theorem emitByte_pred (v : Byte) (s : State) : (emitByte v s).pred = s.pred := rfl
@[simp] theorem emitByte_sidx (v : Byte) (s : State) : (emitByte v s).sidx = s.sidx := rfl
@[simp] theorem emitByte_initd (v : Byte) (s : State) : (emitByte v s).initd = s.initd := rfl
@[simp] theorem emitByte_busy (v : Byte) (s : State) : (emitByte v s).busy = s.busy := rfl
@[simp] theorem emitByte_pkLo (v : Byte) (s : State) : (emitByte v s).pkLo = s.pkLo := rfl
@[simp] theorem emitByte_pkPh (v : Byte) (s : State) : (emitByte v s).pkPh = s.pkPh := rfl
@[simp] theorem emitByte_upHi (v : Byte) (s : State) : (emitByte v s).upHi = s.upHi := rfl
@[simp] theorem emitByte_upPh (v : Byte) (s : State) : (emitByte v s).upPh = s.upPh := rfl
@[simp] theorem emitByte_cnt (v : Byte) (s : State) : (emitByte v s).cnt = s.cnt := rfl
@[simp] theorem emitByte_idxI (v : Byte) (s : State) : (emitByte v s).idxI = s.idxI := rfl
@[simp] theorem emitByte_idxO (v : Byte) (s : State) : (emitByte v s).idxO = s.idxO + 1 := rfl
@[simp] theorem emitByte_cmd (v : Byte) (s : State) : (emitByte v s).cmd = s.cmd := rfl
@[simp] theorem emitByte_todo (v : Byte) (s : State) : (emitByte v s).todo = s.todo := rfl
@[simp] theorem emitByte_res (v : Byte) (s : State) : (emitByte v s).res = s.res := rfl
@[simp] theorem emitByte_lenW (v : Byte) (s : State) : (emitByte v s).lenW = s.lenW := rfl
@[simp] theorem emitByte_launch (v : Byte) (s : State) : (emitByte v s).launch = s.launch := rfl
@[simp] theorem emitByte_inMem (v : Byte) (s : State) : (emitByte v s).inMem = s.inMem := rfl
@[simp] theorem emitByte_outMem (v : Byte) (s : State) : (emitByte v s).outMem = Memory.write s.outMem s.idxO v := rfl
@[simp] theorem emitByte_rdata (v : Byte) (s : State) : (emitByte v s).rdata = s.rdata := rfl
@[simp] theorem emitByte_inbox (v : Byte) (s : State) : (emitByte v s).inbox = s.inbox := rfl

@[simp] theorem beginEnc_pred (n : Nat) (s : State) : (beginEnc n s).pred = s.pred := rfl
@[simp] theorem beginEnc_sidx (n : Nat) (s : State) : (beginEnc n s).sidx = s.sidx := rfl
@[simp] theorem beginEnc_initd (n : Nat) (s : State) : (beginEnc n s).initd = s.initd := rfl
@[simp] theorem beginEnc_busy (n : Nat) (s : State) : (beginEnc n s).busy = s.busy := rfl
@[simp] theorem beginEnc_pkLo (n : Nat) (s : State) : (beginEnc n s).pkLo = s.pkLo := rfl
@[simp] theorem beginEnc_pkPh (n : Nat) (s : State) : (beginEnc n s).pkPh = false := rfl
@[simp] theorem beginEnc_upHi (n : Nat) (s : State) : (beginEnc n s).upHi = s.upHi := rfl
@[simp] theorem beginEnc_upPh (n : Nat) (s : State) : (beginEnc n s).upPh = s.upPh := rfl
@[simp] theorem beginEnc_cnt (n : Nat) (s : State) : (beginEnc n s).cnt = n := rfl
@[simp] theorem beginEnc_idxI (n : Nat) (s : State) : (beginEnc n s).idxI = 0 := rfl
@[simp] theorem beginEnc_idxO (n : Nat) (s : State) : (beginEnc n s).idxO = 0 := rfl
@[simp] theorem beginEnc_cmd (n : Nat) (s : State) : (beginEnc n s).cmd = s.cmd := rfl
@[simp] theorem beginEnc_todo (n : Nat) (s : State) : (beginEnc n s).todo = s.todo := rfl
@[simp] theorem beginEnc_res (n : Nat) (s : State) : (beginEnc n s).res = s.res := rfl
@[simp] theorem beginEnc_lenW (n : Nat) (s : State) : (beginEnc n s).lenW = s.lenW := rfl
@[simp] theorem beginEnc_launch (n : Nat) (s : State) : (beginEnc n s).launch = s.launch := rfl
@[simp] theorem beginEnc_inMem (n : Nat) (s : State) : (beginEnc n s).inMem = s.inMem := rfl
@[simp] theorem beginEnc_outMem (n : Nat) (s : State) : (beginEnc n s).outMem = s.outMem := rfl
@[simp] theorem beginEnc_rdata (n : Nat) (s : State) : (beginEnc n s).rdata = s.rdata := rfl
@[simp] theorem beginEnc_inbox (n : Nat) (s : State) : (beginEnc n s).inbox = s.inbox := rfl

@[simp] theorem beginDec_pred (m : Nat) (s : State) : (beginDec m s).pred = s.pred := rfl
@[simp] theorem beginDec_sidx (m : Nat) (s : State) : (beginDec m s).sidx = s.sidx := rfl
@[simp] theorem beginDec_initd (m : Nat) (s : State) : (beginDec m s).initd = s.initd := rfl
@[simp] theorem beginDec_busy (m : Nat) (s : State) : (beginDec m s).busy = s.busy := rfl
@[simp] theorem beginDec_pkLo (m : Nat) (s : State) : (beginDec m s).pkLo = s.pkLo := rfl
@[simp] theorem beginDec_pkPh (m : Nat) (s : State) : (beginDec m s).pkPh = s.pkPh := rfl
@[simp] theorem beginDec_upHi (m : Nat) (s : State) : (beginDec m s).upHi = s.upHi := rfl
@[simp] theorem beginDec_upPh (m : Nat) (s : State) : (beginDec m s).upPh = false := rfl
@[simp] theorem beginDec_cnt (m : Nat) (s : State) : (beginDec m s).cnt = m := rfl
@[simp] theorem beginDec_idxI (m : Nat) (s : State) : (beginDec m s).idxI = 0 := rfl
@[simp] theorem beginDec_idxO (m : Nat) (s : State) : (beginDec m s).idxO = 0 := rfl
@[simp] theorem beginDec_cmd (m : Nat) (s : State) : (beginDec m s).cmd = s.cmd := rfl
@[simp] theorem beginDec_todo (m : Nat) (s : State) : (beginDec m s).todo = s.todo := rfl
@[simp] theorem beginDec_res (m : Nat) (s : State) : (beginDec m s).res = s.res := rfl
@[simp] theorem beginDec_lenW (m : Nat) (s : State) : (beginDec m s).lenW = s.lenW := rfl
@[simp] theorem beginDec_launch (m : Nat) (s : State) : (beginDec m s).launch = s.launch := rfl
@[simp] theorem beginDec_inMem (m : Nat) (s : State) : (beginDec m s).inMem = s.inMem := rfl
@[simp] theorem beginDec_outMem (m : Nat) (s : State) : (beginDec m s).outMem = s.outMem := rfl
@[simp] theorem beginDec_rdata (m : Nat) (s : State) : (beginDec m s).rdata = s.rdata := rfl
@[simp] theorem beginDec_inbox (m : Nat) (s : State) : (beginDec m s).inbox = s.inbox := rfl

@[simp] theorem advanceIn_pred (s : State) : (advanceIn s).pred = s.pred := rfl
@[simp] theorem advanceIn_sidx (s : State) : (advanceIn s).sidx = s.sidx := rfl
@[simp] theorem advanceIn_initd (s : State) : (advanceIn s).initd = s.initd := rfl
@[simp] theorem advanceIn_busy (s : State) : (advanceIn s).busy = s.busy := rfl
@[simp] theorem advanceIn_pkLo (s : State) : (advanceIn s).pkLo = s.pkLo := rfl
@[simp] theorem advanceIn_pkPh (s : State) : (advanceIn s).pkPh = s.pkPh := rfl
@[simp] theorem advanceIn_upHi (s : State) : (advanceIn s).upHi = s.upHi := rfl
@[simp] theorem advanceIn_upPh (s : State) : (advanceIn s).upPh = s.upPh := rfl
@[simp] theorem advanceIn_cnt (s : State) : (advanceIn s).cnt = s.cnt := rfl
@[simp] theorem advanceIn_idxI (s : State) : (advanceIn s).idxI = s.idxI + 1 := rfl
@[simp] theorem advanceIn_idxO (s : State) : (advanceIn s).idxO = s.idxO := rfl
@[simp] theorem advanceIn_cmd (s : State) : (advanceIn s).cmd = s.cmd := rfl
@[simp] theorem advanceIn_todo (s : State) : (advanceIn s).todo = s.todo := rfl
@[simp] theorem advanceIn_res (s : State) : (advanceIn s).res = s.res := rfl
@[simp] theorem advanceIn_lenW (s : State) : (advanceIn s).lenW = s.lenW := rfl
@[simp] theorem advanceIn_launch (s : State) : (advanceIn s).launch = s.launch := rfl
@[simp] theorem advanceIn_inMem (s : State) : (advanceIn s).inMem = s.inMem := rfl
@[simp] theorem advanceIn_outMem (s : State) : (advanceIn s).outMem = s.outMem := rfl
@[simp] theorem advanceIn_rdata (s : State) : (advanceIn s).rdata = s.rdata := rfl
@[simp] theorem advanceIn_inbox (s : State) : (advanceIn s).inbox = s.inbox := rfl

@[simp] theorem holdCode_pred (c : Code) (s : State) : (holdCode c s).pred = s.pred := rfl
@[simp] theorem holdCode_sidx (c : Code) (s : State) : (holdCode c s).sidx = s.sidx := rfl
@[simp] theorem holdCode_initd (c : Code) (s : State) : (holdCode c s).initd = s.initd := rfl
@[simp] theorem holdCode_busy (c : Code) (s : State) : (holdCode c s).busy = s.busy := rfl
@[simp] theorem holdCode_pkLo (c : Code) (s : State) : (holdCode c s).pkLo = c := rfl
@[simp] theorem holdCode_pkPh (c : Code) (s : State) : (holdCode c s).pkPh = true := rfl
@[simp] theorem holdCode_upHi (c : Code) (s : State) : (holdCode c s).upHi = s.upHi := rfl
@[simp] theorem holdCode_upPh (c : Code) (s : State) : (holdCode c s).upPh = s.upPh := rfl
@[simp] theorem holdCode_cnt (c : Code) (s : State) : (holdCode c s).cnt = s.cnt := rfl
@[simp] theorem holdCode_idxI (c : Code) (s : State) : (holdCode c s).idxI = s.idxI := rfl
@[simp] theorem holdCode_idxO (c : Code) (s : State) : (holdCode c s).idxO = s.idxO := rfl
@[simp] theorem holdCode_cmd (c : Code) (s : State) : (holdCode c s).cmd = s.cmd := rfl
@[simp] theorem holdCode_todo (c : Code) (s : State) : (holdCode c s).todo = s.todo := rfl
@[simp] theorem holdCode_res (c : Code) (s : State) : (holdCode c s).res = s.res := rfl
@[simp] theorem holdCode_lenW (c : Code) (s : State) : (holdCode c s).lenW = s.lenW := rfl
@[simp] theorem holdCode_launch (c : Code) (s : State) : (holdCode c s).launch = s.launch := rfl
@[simp] theorem holdCode_inMem (c : Code) (s : State) : (holdCode c s).inMem = s.inMem := rfl
@[simp] theorem holdCode_outMem (c : Code) (s : State) : (holdCode c s).outMem = s.outMem := rfl
@[simp] theorem holdCode_rdata (c : Code) (s : State) : (holdCode c s).rdata = s.rdata := rfl
@[simp] theorem holdCode_inbox (c : Code) (s : State) : (holdCode c s).inbox = s.inbox := rfl

@[simp] theorem releasePack_pred (s : State) : (releasePack s).pred = s.pred := rfl
@[simp] theorem releasePack_sidx (s : State) : (releasePack s).sidx = s.sidx := rfl
@[simp] theorem releasePack_initd (s : State) : (releasePack s).initd = s.initd := rfl
@[simp] theorem releasePack_busy (s : State) : (releasePack s).busy = s.busy := rfl
@[simp] theorem releasePack_pkLo (s : State) : (releasePack s).pkLo = s.pkLo := rfl
@[simp] theorem releasePack_pkPh (s : State) : (releasePack s).pkPh = false := rfl
@[simp] theorem releasePack_upHi (s : State) : (releasePack s).upHi = s.upHi := rfl
@[simp] theorem releasePack_upPh (s : State) : (releasePack s).upPh = s.upPh := rfl
@[simp] theorem releasePack_cnt (s : State) : (releasePack s).cnt = s.cnt := rfl
@[simp] theorem releasePack_idxI (s : State) : (releasePack s).idxI = s.idxI := rfl
@[simp] theorem releasePack_idxO (s : State) : (releasePack s).idxO = s.idxO := rfl
@[simp] theorem releasePack_cmd (s : State) : (releasePack s).cmd = s.cmd := rfl
@[simp] theorem releasePack_todo (s : State) : (releasePack s).todo = s.todo := rfl
@[simp] theorem releasePack_res (s : State) : (releasePack s).res = s.res := rfl
@[simp] theorem releasePack_lenW (s : State) : (releasePack s).lenW = s.lenW := rfl
@[simp] theorem releasePack_launch (s : State) : (releasePack s).launch = s.launch := rfl
@[simp] theorem releasePack_inMem (s : State) : (releasePack s).inMem = s.inMem := rfl
@[simp] theorem releasePack_outMem (s : State) : (releasePack s).outMem = s.outMem := rfl
@[simp] theorem releasePack_rdata (s : State) : (releasePack s).rdata = s.rdata := rfl
@[simp] theorem releasePack_inbox (s : State) : (releasePack s).inbox = s.inbox := rfl

@[simp] theorem holdHigh_pred (b : Byte) (s : State) : (holdHigh b s).pred = s.pred := rfl
@[simp] theorem holdHigh_sidx (b : Byte) (s : State) : (holdHigh b s).sidx = s.sidx := rfl
@[simp] theorem holdHigh_initd (b : Byte) (s : State) : (holdHigh b s).initd = s.initd := rfl
@[simp] theorem holdHigh_busy (b : Byte) (s : State) : (holdHigh b s).busy = s.busy := rfl
@[simp] theorem holdHigh_pkLo (b : Byte) (s : State) : (holdHigh b s).pkLo = s.pkLo := rfl
@[simp] theorem holdHigh_pkPh (b : Byte) (s : State) : (holdHigh b s).pkPh = s.pkPh := rfl
@[simp] theorem holdHigh_upHi (b : Byte) (s : State) : (holdHigh b s).upHi = highNibble b := rfl
@[simp] theorem holdHigh_upPh (b : Byte) (s : State) : (holdHigh b s).upPh = true := rfl
@[simp] theorem holdHigh_cnt (b : Byte) (s : State) : (holdHigh b s).cnt = s.cnt := rfl
@[simp] theorem holdHigh_idxI (b : Byte) (s : State) : (holdHigh b s).idxI = s.idxI := rfl
@[simp] theorem holdHigh_idxO (b : Byte) (s : State) : (holdHigh b s).idxO = s.idxO := rfl
@[simp] theorem holdHigh_cmd (b : Byte) (s : State) : (holdHigh b s).cmd = s.cmd := rfl
@[simp] theorem holdHigh_todo (b : Byte) (s : State) : (holdHigh b s).todo = s.todo := rfl
@[simp] theorem holdHigh_res (b : Byte) (s : State) : (holdHigh b s).res = s.res := rfl
@[simp] theorem holdHigh_lenW (b : Byte) (s : State) : (holdHigh b s).lenW = s.lenW := rfl
@[simp] theorem holdHigh_launch (b : Byte) (s : State) : (holdHigh b s).launch = s.launch := rfl
@[simp] theorem holdHigh_inMem (b : Byte) (s : State) : (holdHigh b s).inMem = s.inMem := rfl
@[simp] theorem holdHigh_outMem (b : Byte) (s : State) : (holdHigh b s).outMem = s.outMem := rfl
@[simp] theorem holdHigh_rdata (b : Byte) (s : State) : (holdHigh b s).rdata = s.rdata := rfl
@[simp] theorem holdHigh_inbox (b : Byte) (s : State) : (holdHigh b s).inbox = s.inbox := rfl

@[simp] theorem releaseHigh_pred (s : State) : (releaseHigh s).pred = s.pred := rfl
@[simp] theorem releaseHigh_sidx (s : State) : (releaseHigh s).sidx = s.sidx := rfl
@[simp] theorem releaseHigh_initd (s : State) : (releaseHigh s).initd = s.initd := rfl
@[simp] theorem releaseHigh_busy (s : State) : (releaseHigh s).busy = s.busy := rfl
@[simp] theorem releaseHigh_pkLo (s : State) : (releaseHigh s).pkLo = s.pkLo := rfl
@[simp] theorem releaseHigh_pkPh (s : State) : (releaseHigh s).pkPh = s.pkPh := rfl
@[simp] theorem releaseHigh_upHi (s : State) : (releaseHigh s).upHi = s.upHi := rfl
@[simp] theorem releaseHigh_upPh (s : State) : (releaseHigh s).upPh = false := rfl
@[simp] theorem releaseHigh_cnt (s : State) : (releaseHigh s).cnt = s.cnt := rfl
@[simp] theorem releaseHigh_idxI (s : State) : (releaseHigh s).idxI = s.idxI := rfl
@[simp] theorem releaseHigh_idxO (s : State) : (releaseHigh s).idxO = s.idxO := rfl
@[simp] theorem releaseHigh_cmd (s : State) : (releaseHigh s).cmd = s.cmd := rfl
@[simp] theorem releaseHigh_todo (s : State) : (releaseHigh s).todo = s.todo := rfl
@[simp] theorem releaseHigh_res (s : State) : (releaseHigh s).res = s.res := rfl
@[simp] theorem releaseHigh_lenW (s : State) : (releaseHigh s).lenW = s.lenW := rfl
@[simp] theorem releaseHigh_launch (s : State) : (releaseHigh s).launch = s.launch := rfl
@[simp] theorem releaseHigh_inMem (s : State) : (releaseHigh s).inMem = s.inMem := rfl
@[simp] theorem releaseHigh_outMem (s : State) : (releaseHigh s).outMem = s.outMem := rfl
@[simp] theorem releaseHigh_rdata (s : State) : (releaseHigh s).rdata = s.rdata := rfl
@[simp] theorem releaseHigh_inbox (s : State) : (releaseHigh s).inbox = s.inbox := rfl

@[simp] theorem accept_pred (s : State) : (accept s).pred = s.pred := rfl
@[simp] theorem accept_sidx (s : State) : (accept s).sidx = s.sidx := rfl
@[simp] theorem accept_initd (s : State) : (accept s).initd = s.initd := rfl
@[simp] theorem accept_busy (s : State) : (accept s).busy = true := rfl
@[simp] theorem accept_pkLo (s : State) : (accept s).pkLo = s.pkLo := rfl
@[simp] theorem accept_pkPh (s : State) : (accept s).pkPh = s.pkPh := rfl
@[simp] theorem accept_upHi (s : State) : (accept s).upHi = s.upHi := rfl
@[simp] theorem accept_upPh (s : State) : (accept s).upPh = s.upPh := rfl
@[simp] theorem accept_cnt (s : State) : (accept s).cnt = s.cnt := rfl
@[simp] theorem accept_idxI (s : State) : (accept s).idxI = s.idxI := rfl
@[simp] theorem accept_idxO (s : State) : (accept s).idxO = s.idxO := rfl
@[simp] theorem accept_cmd (s : State) : (accept s).cmd = s.cmd := rfl
@[simp] theorem accept_todo (s : State) : (accept s).todo = s.todo := rfl
@[simp] theorem accept_res (s : State) : (accept s).res = none := rfl
@[simp] theorem accept_lenW (s : State) : (accept s).lenW = s.lenW := rfl
@[simp] theorem accept_launch (s : State) : (accept s).launch = s.launch := rfl
@[simp] theorem accept_inMem (s : State) : (accept s).inMem = s.inMem := rfl
@[simp] theorem accept_outMem (s : State) : (accept s).outMem = s.outMem := rfl
@[simp] theorem accept_rdata (s : State) : (accept s).rdata = s.rdata := rfl
@[simp] theorem accept_inbox (s : State) : (accept s).inbox = s.inbox := rfl

@[simp] theorem returnResult_pred (r : Nat) (s : State) : (returnResult r s).pred = s.pred := rfl
@[simp] theorem returnResult_sidx (r : Nat) (s : State) : (returnResult r s).sidx = s.sidx := rfl
@[simp] theorem returnResult_initd (r : Nat) (s : State) : (returnResult r s).initd = s.initd := rfl
@[simp] theorem returnResult_busy (r : Nat) (s : State) : (returnResult r s).busy = false := rfl
@[simp] theorem returnResult_pkLo (r : Nat) (s : State) : (returnResult r s).pkLo = s.pkLo := rfl
@[simp] theorem returnResult_pkPh (r : Nat) (s : State) : (returnResult r s).pkPh = s.pkPh := rfl
@[simp] theorem returnResult_upHi (r : Nat) (s : State) : (returnResult r s).upHi = s.upHi := rfl
@[simp] theorem returnResult_upPh (r : Nat) (s : State) : (returnResult r s).upPh = s.upPh := rfl
@[simp] theorem returnResult_cnt (r : Nat) (s : State) : (returnResult r s).cnt = s.cnt := rfl
@[simp] theorem returnResult_idxI (r : Nat) (s : State) : (returnResult r s).idxI = s.idxI := rfl
@[simp] theorem returnResult_idxO (r : Nat) (s : State) : (returnResult r s).idxO = s.idxO := rfl
@[simp] theorem returnResult_cmd (r : Nat) (s : State) : (returnResult r s).cmd = s.cmd := rfl
@[simp] theorem returnResult_todo (r : Nat) (s : State) : (returnResult r s).todo = s.todo := rfl
@[simp] theorem returnResult_res (r : Nat) (s : State) : (returnResult r s).res = some r := rfl
@[simp] theorem returnResult_lenW (r : Nat) (s : State) : (returnResult r s).lenW = s.lenW := rfl
@[simp] theorem returnResult_launch (r : Nat) (s : State) : (returnResult r s).launch = s.launch := rfl
@[simp] theorem returnResult_inMem (r : Nat) (s : State) : (returnResult r s).inMem = s.inMem := rfl
@[simp] theorem returnResult_outMem (r : Nat) (s : State) : (returnResult r s).outMem = s.outMem := rfl
@[simp] theorem returnResult_rdata (r : Nat) (s : State) : (returnResult r s).rdata = s.rdata := rfl
@[simp] theorem returnResult_inbox (r : Nat) (s : State) : (returnResult r s).inbox = s.inbox := rfl

@[simp] theorem finishOperation_pred (r : ResultSource) (s : State) : (finishOperation r s).pred = s.pred := rfl
@[simp] theorem finishOperation_sidx (r : ResultSource) (s : State) : (finishOperation r s).sidx = s.sidx := rfl
@[simp] theorem finishOperation_initd (r : ResultSource) (s : State) : (finishOperation r s).initd = s.initd := rfl
@[simp] theorem finishOperation_busy (r : ResultSource) (s : State) : (finishOperation r s).busy = false := rfl
@[simp] theorem finishOperation_pkLo (r : ResultSource) (s : State) : (finishOperation r s).pkLo = s.pkLo := rfl
@[simp] theorem finishOperation_pkPh (r : ResultSource) (s : State) : (finishOperation r s).pkPh = s.pkPh := rfl
@[simp] theorem finishOperation_upHi (r : ResultSource) (s : State) : (finishOperation r s).upHi = s.upHi := rfl
@[simp] theorem finishOperation_upPh (r : ResultSource) (s : State) : (finishOperation r s).upPh = s.upPh := rfl
@[simp] theorem finishOperation_cnt (r : ResultSource) (s : State) : (finishOperation r s).cnt = s.cnt := rfl
@[simp] theorem finishOperation_idxI (r : ResultSource) (s : State) : (finishOperation r s).idxI = s.idxI := rfl
@[simp] theorem finishOperation_idxO (r : ResultSource) (s : State) : (finishOperation r s).idxO = s.idxO := rfl
@[simp] theorem finishOperation_cmd (r : ResultSource) (s : State) : (finishOperation r s).cmd = none := rfl
@[simp] theorem finishOperation_todo (r : ResultSource) (s : State) : (finishOperation r s).todo = s.todo := rfl
@[simp] theorem finishOperation_res (r : ResultSource) (s : State) : (finishOperation r s).res = some (resultOf r s) := rfl
@[simp] theorem finishOperation_lenW (r : ResultSource) (s : State) : (finishOperation r s).lenW = s.lenW := rfl
@[simp] theorem finishOperation_launch (r : ResultSource) (s : State) : (finishOperation r s).launch = s.launch := rfl
@[simp] theorem finishOperation_inMem (r : ResultSource) (s : State) : (finishOperation r s).inMem = s.inMem := rfl
@[simp] theorem finishOperation_outMem (r : ResultSource) (s : State) : (finishOperation r s).outMem = s.outMem := rfl
@[simp] theorem finishOperation_rdata (r : ResultSource) (s : State) : (finishOperation r s).rdata = s.rdata := rfl
@[simp] theorem finishOperation_inbox (r : ResultSource) (s : State) : (finishOperation r s).inbox = s.inbox := rfl

@[simp] theorem schedule_pred (ms : List Micro) (s : State) : (schedule ms s).pred = s.pred := rfl
@[simp] theorem schedule_sidx (ms : List Micro) (s : State) : (schedule ms s).sidx = s.sidx := rfl
@[simp] theorem schedule_initd (ms : List Micro) (s : State) : (schedule ms s).initd = s.initd := rfl
@[simp] theorem schedule_busy (ms : List Micro) (s : State) : (schedule ms s).busy = s.busy := rfl
@[simp] theorem schedule_pkLo (ms : List Micro) (s : State) : (schedule ms s).pkLo = s.pkLo := rfl
@[simp] theorem schedule_pkPh (ms : List Micro) (s : State) : (schedule ms s).pkPh = s.pkPh := rfl
@[simp] theorem schedule_upHi (ms : List Micro) (s : State) : (schedule ms s).upHi = s.upHi := rfl
@[simp] theorem schedule_upPh (ms : List Micro) (s : State) : (schedule ms s).upPh = s.upPh := rfl
@[simp] theorem schedule_cnt (ms : List Micro) (s : State) : (schedule ms s).cnt = s.cnt := rfl
@[simp] theorem schedule_idxI (ms : List Micro) (s : State) : (schedule ms s).idxI = s.idxI := rfl
@[simp] theorem schedule_idxO (ms : List Micro) (s : State) : (schedule ms s).idxO = s.idxO := rfl
@[simp] theorem schedule_cmd (ms : List Micro) (s : State) : (schedule ms s).cmd = s.cmd := rfl
@[simp] theorem schedule_todo (ms : List Micro) (s : State) : (schedule ms s).todo = ms ++ s.todo := rfl
@[simp] theorem schedule_res (ms : List Micro) (s : State) : (schedule ms s).res = s.res := rfl
@[simp] theorem schedule_lenW (ms : List Micro) (s : State) : (schedule ms s).lenW = s.lenW := rfl
@[simp] theorem schedule_launch (ms : List Micro) (s : State) : (schedule ms s).launch = s.launch := rfl
@[simp] theorem schedule_inMem (ms : List Micro) (s : State) : (schedule ms s).inMem = s.inMem := rfl
@[simp] theorem schedule_outMem (ms : List Micro) (s : State) : (schedule ms s).outMem = s.outMem := rfl
@[simp] theorem schedule_rdata (ms : List Micro) (s : State) : (schedule ms s).rdata = s.rdata := rfl
@[simp] theorem schedule_inbox (ms : List Micro) (s : State) : (schedule ms s).inbox = s.inbox := rfl

end Sys2Proof.Machine
end

