-- ==== Sys2Proof/Laws/Ops.lean ====
section
/-! SUPPORT. Ops.lean: for each shared operation, once, everything it can do. -/

namespace Sys2Proof.Machine

/-! ### Registers read back what was written -/

theorem predReg_toInt {x : Int} (h0 : -1024 ≤ x) (h1 : x ≤ 1023) : (BitVec.ofInt 11 x).toInt = x := by
  rw [BitVec.toInt_ofInt]
  exact Int.bmod_eq_of_le (by norm_num; omega) (by norm_num; omega)

theorem sidxReg_toInt {x : Int} (h0 : -64 ≤ x) (h1 : x ≤ 63) : (BitVec.ofInt 7 x).toInt = x := by
  rw [BitVec.toInt_ofInt]
  exact Int.bmod_eq_of_le (by norm_num; omega) (by norm_num; omega)

theorem predReg_ofByte (b : Byte) : (BitVec.ofInt 11 (b.toNat : Int)).toInt = b.toNat :=
  predReg_toInt (by omega) (by have := b.isLt; omega)

/-- A committed predictor as a byte is its value. -/
theorem predByte_toNat {s : State} (h : PredCommitted s) : ((predByte s).toNat : Int) = s.pred.toInt := by
  have h11 := s.pred.isLt
  have hp := h
  rw [PredCommitted, BitVec.toInt_eq_toNat_cond] at hp
  rw [BitVec.toInt_eq_toNat_cond]
  simp only [predByte, BitVec.toNat_setWidth]
  split at hp <;> split <;> omega

/-! ### The sample steps -/

theorem seed_committed (b : Byte) (s : State) : Committed (seed b s) := by
  have hb := b.isLt
  refine ⟨⟨?_, ?_⟩, ?_, ?_⟩ <;> simp only [seed_pred, seed_sidx, predReg_ofByte] <;> first | omega | decide

theorem clampPred_committed (s : State) : PredCommitted (clampPred s) := by
  have h := clampP_range s.pred.toInt
  constructor <;> rw [clampPred_pred, predReg_toInt (by omega) (by omega)] <;> omega

theorem clampSidx_committed (s : State) : SidxCommitted (clampSidx s) := by
  have h := clampI_range s.sidx.toInt
  constructor <;> rw [clampSidx_sidx, sidxReg_toInt (by omega) (by omega)] <;> omega

/-- Whatever it is given, the State Clamp commits both fields (R63, R64). -/
theorem stateClamp_committed (c : Code) (s : State) : Committed (stateClamp c s) :=
  ⟨clampPred_committed s, clampSidx_committed _⟩

/-- The State Clamp writes PRED and SIDX and nothing else. -/
theorem stateClamp_eq (c : Code) (s : State) :
    stateClamp c s = { s with pred := (clampPred s).pred, sidx := (clampSidx (adjustSidx c s)).sidx } := rfl

/-- A step word is there exactly when SIDX is committed (R62). -/
theorem currentStep_isSome {s : State} (h : SidxCommitted s) : ∃ w, currentStep s = some w :=
  stepRom_isSome h.1 h.2

theorem currentStep_some {s : State} {w : Nat} (h : currentStep s = some w) :
    SidxCommitted s ∧ 1 ≤ w ∧ w ≤ 315 := by
  have := stepRom_eq_some h
  exact ⟨⟨this.1, this.2.1⟩, this.2.2⟩

/-- All an encoder step can do: it takes the step word, quantises, and writes PRED and SIDX, committed. -/
theorem encStep_some {b : Byte} {s t : State} {c : Code} (h : encStep b s = some (c, t)) :
    ∃ step, currentStep s = some step ∧ c = (quantise s.pred.toInt step b).code ∧
      t = stateClamp c (movePred c (quantise s.pred.toInt step b).delta s) ∧ Committed t := by
  unfold encStep at h
  split at h
  · cases h
  · next step hs =>
    cases h
    exact ⟨step, hs, rfl, rfl, stateClamp_committed _ _⟩

/-- All a decoder step can do: it takes the step word and writes PRED and SIDX, committed; its answer is PRED. -/
theorem decStep_some {c : Code} {s t : State} {y : Byte} (h : decStep c s = some (y, t)) :
    ∃ step, currentStep s = some step ∧ y = predByte t ∧
      t = stateClamp c (movePred c (codeDelta step c) s) ∧ Committed t := by
  unfold decStep at h
  split at h
  · cases h
  · next step hs =>
    cases h
    exact ⟨step, hs, rfl, rfl, stateClamp_committed _ _⟩

theorem encStep_isSome (b : Byte) {s : State} (h : SidxCommitted s) : ∃ r, encStep b s = some r := by
  obtain ⟨w, hw⟩ := currentStep_isSome h
  simp [encStep, hw]

theorem decStep_isSome (c : Code) {s : State} (h : SidxCommitted s) : ∃ r, decStep c s = some r := by
  obtain ⟨w, hw⟩ := currentStep_isSome h
  simp [decStep, hw]

/-! ### The packer -/

theorem pack_first {s : State} (c : Code) (h : s.pkPh = false) : pack c s = holdCode c s := by simp [pack, h]

theorem pack_second {s : State} (c : Code) (h : s.pkPh = true) :
    pack c s = releasePack (emitByte (packedByte s.pkLo c) s) := by simp [pack, h]

theorem packFlush_empty {s : State} (h : s.pkPh = false) : packFlush s = s := by simp [packFlush, h]

theorem packFlush_held {s : State} (h : s.pkPh = true) :
    packFlush s = releasePack (emitByte (packedByte s.pkLo 0) s) := by simp [packFlush, h]

/-! ### Launching -/

/-- A transaction answers a next state exactly when it is not refused and its body answers. -/
theorem transact_next {why : Option Refusal} {body : State → Option (Nat × State)} {s t : State} :
    transact why body s = .next t ↔
      why = none ∧ ∃ r u, body (accept s) = some (r, u) ∧ t = returnResult r u := by
  unfold transact
  cases why with
  | some r => simp
  | none =>
    cases hb : body (accept s) with
    | none => simp
    | some ru =>
      obtain ⟨r, u⟩ := ru
      simp [eq_comm]

theorem idleRefusal_none {s : State} : idleRefusal s = none ↔ s.busy = false := by
  cases h : s.busy <;> simp [idleRefusal, h]

theorem sampleRefusal_none {s : State} : sampleRefusal s = none ↔ s.busy = false ∧ s.initd = true := by
  cases h : s.busy <;> cases h' : s.initd <;> simp [sampleRefusal, h, h']

theorem bufferRefusal_none {n len : Nat} {s : State} : bufferRefusal n len s = none ↔ Launchable n len s := by
  unfold bufferRefusal Launchable
  cases h : s.busy
  · by_cases h1 : 2 ^ s.lenW ≤ n
    · simp [h1]
    · by_cases h2 : s.launch.outCap < len
      · simp [h1, h2]
      · have h4 : n < 2 ^ s.lenW ∧ len ≤ s.launch.outCap := by omega
        cases h3 : overlapping n s.launch <;> simp [h1, h2, h4]
  · simp

end Sys2Proof.Machine
end

