-- ==== Sys2Proof/Laws/Exec.lean ====
section
/-! SUPPORT. Exec.lean: when each meaning answers a next state, and which, said once. -/

namespace Sys2Proof.Machine

theorem execInit_next {b : Byte} {s t : State} :
    execInit b s = .next t ↔ s.busy = false ∧ t = returnResult 0 (seed b (accept s)) := by
  simp [execInit, transact_next, idleRefusal_none]

theorem execEncs_next {b : Byte} {s t : State} :
    execEncs b s = .next t ↔
      (s.busy = false ∧ s.initd = true) ∧
        ∃ c u, encStep b (accept s) = some (c, u) ∧ t = returnResult c.toNat u := by
  simp only [execEncs, transact_next, sampleRefusal_none, Option.map_eq_some_iff, Prod.mk.injEq]
  constructor
  · rintro ⟨h, r, u, ⟨⟨c, v⟩, hs, rfl, rfl⟩, rfl⟩
    exact ⟨h, c, v, hs, rfl⟩
  · rintro ⟨h, c, u, hs, rfl⟩
    exact ⟨h, _, _, ⟨(c, u), hs, rfl, rfl⟩, rfl⟩

theorem decodeCommand_next {c : Code} {s t : State} :
    decodeCommand c s = .next t ↔
      (s.busy = false ∧ s.initd = true) ∧
        ∃ y u, decStep c (accept s) = some (y, u) ∧ t = returnResult y.toNat u := by
  simp only [decodeCommand, transact_next, sampleRefusal_none, Option.map_eq_some_iff, Prod.mk.injEq]
  constructor
  · rintro ⟨h, r, u, ⟨⟨y, v⟩, hs, rfl, rfl⟩, rfl⟩
    exact ⟨h, y, v, hs, rfl⟩
  · rintro ⟨h, y, u, hs, rfl⟩
    exact ⟨h, _, _, ⟨(y, u), hs, rfl, rfl⟩, rfl⟩

theorem execEnc_next {n : Nat} {s t : State} :
    execEnc n s = .next t ↔
      Launchable n (encLength n) s ∧ ∃ r u, encBody n (accept s) = some (r, u) ∧ t = returnResult r u := by
  simp only [execEnc, transact_next, bufferRefusal_none]

theorem execDec_next {m : Nat} {s t : State} :
    execDec m s = .next t ↔
      Launchable m (decLength m) s ∧ ∃ r u, decBody m (accept s) = some (r, u) ∧ t = returnResult r u := by
  simp only [execDec, transact_next, bufferRefusal_none]

end Sys2Proof.Machine
end

