-- ==== Sys2Proof/Laws/Invariant.lean ====
section
/-! SUPPORT. Invariant.lean: the soundness of remaining micro-steps is monotone in what is known. -/

namespace Sys2Proof.Machine

/-- `k'` knows what `k` knows, and INITD is the same. -/
def Known.le (k k' : Known) : Prop :=
  (k.pred = true → k'.pred = true) ∧ (k.sidx = true → k'.sidx = true) ∧ k.initd = k'.initd ∧
    (k.count = true → k'.count = true) ∧ (k.packer = true → k'.packer = true) ∧
    (k.unpacker = true → k'.unpacker = true)

/-- Micro-steps that are sound where `k` is known are sound where more is known. -/
theorem sound_mono (L : Nat) (ms : List Micro) :
    ∀ k k' : Known, k.le k' → sound L k ms = true → sound L k' ms = true := by
  induction ms with
  | nil => intro k k' _ h; simp [sound] at h
  | cons m ms ih =>
    intro k k' hle h
    obtain ⟨h1,h2,h3,h4,h5,h6⟩ := hle
    cases k with | mk p q i c pk u =>
    cases k' with | mk p' q' i' c' pk' u' =>
    simp only at h1 h2 h3 h4 h5 h6
    subst h3
    have key : ∀ a b c2 d e f g h' j kk l : Bool, (a = true → b = true) → (c2 = true → d = true) →
        (e = true → f = true) → (g = true → h' = true) → (j = true → kk = true) →
        sound L ⟨a, c2, l, e, g, j⟩ ms = true → sound L ⟨b, d, l, f, h', kk⟩ ms = true :=
      fun a b c2 d e f g h' j kk l x1 x2 x3 x4 x5 hh => ih ⟨a, c2, l, e, g, j⟩ ⟨b, d, l, f, h', kk⟩ ⟨x1, x2, rfl, x3, x4, x5⟩ hh
    cases m with
    | encSample b tp =>
      cases tp
      · simp only [sound, Known.canStep, Known.canFinish, Bool.and_eq_true, Bool.or_eq_true] at h ⊢
        obtain ⟨⟨⟨⟨hi, hp⟩, hq⟩, ⟨-, hpk⟩, hu⟩, hr⟩ := h
        exact ⟨⟨⟨⟨hi, h1 hp⟩, h2 hq⟩, ⟨.inr ⟨h1 hp, h2 hq⟩, h5 hpk⟩, h6 hu⟩, hr⟩
      · simp only [sound, Known.canStep, Bool.and_eq_true] at h ⊢
        exact ⟨⟨⟨h.1.1.1, h1 h.1.1.2⟩, h2 h.1.2⟩, key _ _ _ _ _ _ _ _ _ _ _ h1 h2 h4 id h6 h.2⟩
    | writePred b => exact key _ _ _ _ _ _ _ _ _ _ _ id h2 h4 h5 h6 h
    | zeroSidx => exact key _ _ _ _ _ _ _ _ _ _ _ h1 id h4 h5 h6 h
    | setInitd =>
      simp only [sound, Bool.and_eq_true] at h ⊢
      exact ⟨⟨h1 h.1.1, h2 h.1.2⟩, key _ _ _ _ _ _ _ _ _ _ _ h1 h2 h4 h5 h6 h.2⟩
    | decSample c =>
      simp only [sound, Known.canStep, Bool.and_eq_true] at h ⊢
      exact ⟨⟨⟨h.1.1.1, h1 h.1.1.2⟩, h2 h.1.2⟩, key _ _ _ _ _ _ _ _ _ _ _ h1 h2 h4 h5 h6 h.2⟩
    | unpackHigh =>
      simp only [sound, Known.canStep, Bool.and_eq_true] at h ⊢
      exact ⟨⟨⟨h.1.1.1, h1 h.1.1.2⟩, h2 h.1.2⟩, key _ _ _ _ _ _ _ _ _ _ _ h1 h2 h4 h5 id h.2⟩
    | clampPred => exact key _ _ _ _ _ _ _ _ _ _ _ id h2 h4 h5 h6 h
    | clampSidx => exact key _ _ _ _ _ _ _ _ _ _ _ h1 id h4 h5 h6 h
    | adjustSidx c =>
      simp only [sound, Bool.and_eq_true] at h ⊢
      exact ⟨h2 h.1, key _ _ _ _ _ _ _ _ _ _ _ h1 id h4 h5 h6 h.2⟩
    | beginEnc n =>
      simp only [sound, Bool.and_eq_true] at h ⊢
      exact ⟨h.1, key _ _ _ _ _ _ _ _ _ _ _ h1 h2 id id h6 h.2⟩
    | beginDec n =>
      simp only [sound, Bool.and_eq_true] at h ⊢
      exact ⟨h.1, key _ _ _ _ _ _ _ _ _ _ _ h1 h2 id h5 id h.2⟩
    | fetchSeed =>
      simp only [sound, Bool.and_eq_true] at h ⊢
      exact ⟨h4 h.1, key _ _ _ _ _ _ _ _ _ _ _ id id id h5 h6 h.2⟩
    | emit b => exact key _ _ _ _ _ _ _ _ _ _ _ h1 h2 h4 h5 h6 h
    | emitPred =>
      simp only [sound, Bool.and_eq_true] at h ⊢
      exact ⟨h1 h.1, key _ _ _ _ _ _ _ _ _ _ _ h1 h2 h4 h5 h6 h.2⟩
    | pack c => exact key _ _ _ _ _ _ _ _ _ _ _ h1 h2 h4 id h6 h
    | packFlush => exact key _ _ _ _ _ _ _ _ _ _ _ h1 h2 h4 id h6 h
    | encNext =>
      simp only [sound, Known.canStep, Bool.and_eq_true] at h ⊢
      exact ⟨⟨⟨⟨h.1.1.1.1, h1 h.1.1.1.2⟩, h2 h.1.1.2⟩, h6 h.1.2⟩, h.2⟩
    | decNext =>
      simp only [sound, Known.canStep, Bool.and_eq_true] at h ⊢
      exact ⟨⟨⟨⟨⟨h.1.1.1.1.1, h1 h.1.1.1.1.2⟩, h2 h.1.1.1.2⟩, h5 h.1.1.2⟩, h6 h.1.2⟩, h.2⟩
    | finish r =>
      simp only [sound, Known.canFinish, Bool.and_eq_true, Bool.or_eq_true] at h ⊢
      exact ⟨⟨⟨h.1.1.1.imp id (fun x => ⟨h1 x.1, h2 x.2⟩), h5 h.1.1.2⟩, h6 h.1.2⟩, h.2⟩

end Sys2Proof.Machine
end

