-- ==== Sys2Proof/Laws/PerInstr.lean ====
section
/-! SUPPORT. PerInstr.lean: facts about every instruction as syntax, one lemma per constructor. Family ArgFits: the
argument of a well-formed instruction's command has at most `lenW` bits, so the interface can carry it (R53). -/

namespace Sys2Proof.Laws.ArgFits

/-- The command an instruction is encoded as can be presented wherever the instruction is well formed. -/
def Statement (i : Instr) : Prop :=
  ∀ lenW, i.wellFormed lenW = true →
    match encode i with
    | .cmd _ arg => arg < 2 ^ lenW
    | .code4 _ => True

theorem init (b : Byte) : Statement (.init b) :=
  fun _ h => by simpa [Instr.wellFormed, encode] using h

theorem encs (b : Byte) : Statement (.encs b) :=
  fun _ h => by simpa [Instr.wellFormed, encode] using h

theorem decs (c : Code) : Statement (.decs c) :=
  fun _ h => by simpa [Instr.wellFormed, encode] using h

theorem enc (n : Nat) : Statement (.enc n) :=
  fun _ h => by simpa [Instr.wellFormed, encode] using h

theorem dec (m : Nat) : Statement (.dec m) :=
  fun _ h => by simpa [Instr.wellFormed, encode] using h

theorem code0 : Statement .code0 := fun _ _ => trivial

theorem code1 : Statement .code1 := fun _ _ => trivial

theorem code2 : Statement .code2 := fun _ _ => trivial

theorem code3 : Statement .code3 := fun _ _ => trivial

theorem code4 : Statement .code4 := fun _ _ => trivial

theorem code5 : Statement .code5 := fun _ _ => trivial

theorem code6 : Statement .code6 := fun _ _ => trivial

theorem code7 : Statement .code7 := fun _ _ => trivial

theorem code8 : Statement .code8 := fun _ _ => trivial

theorem code9 : Statement .code9 := fun _ _ => trivial

theorem code10 : Statement .code10 := fun _ _ => trivial

theorem code11 : Statement .code11 := fun _ _ => trivial

theorem code12 : Statement .code12 := fun _ _ => trivial

theorem code13 : Statement .code13 := fun _ _ => trivial

theorem code14 : Statement .code14 := fun _ _ => trivial

theorem code15 : Statement .code15 := fun _ _ => trivial

end Sys2Proof.Laws.ArgFits
end

