-- ==== Sys2Proof/Laws/Step.lean ====
section
/-! SUPPORT. Step.lean: what a step can do, said once. -/

namespace Sys2Proof.Machine

/-- All a micro-step can do: nothing when nothing is left, else the next micro-step of the operation. -/
theorem microStep_next {s t : State} (h : microStep s = .next t) :
    (s.todo = [] ∧ t = s) ∨ ∃ m rest, s.todo = m :: rest ∧ microOp m { s with todo := rest } = some t := by
  unfold microStep at h
  split at h
  · next hs => cases h; exact .inl ⟨hs, rfl⟩
  · next m rest hs =>
    split at h
    · cases h
    · next u hu => cases h; exact .inr ⟨m, rest, hs, hu⟩

/-- All a step can do: a micro-step when the host does nothing, else the host's next act. -/
theorem step_cases (s : State) :
    (s.inbox = [] ∧ step s = microStep s) ∨
      ∃ a rest, s.inbox = a :: rest ∧ step s = hostAct a { s with inbox := rest } := by
  cases h : s.inbox with
  | nil => exact .inl ⟨rfl, by simp [step, h]⟩
  | cons a rest => exact .inr ⟨a, rest, rfl, by simp [step, h]⟩

/-- All a host act can do when it answers a next state. -/
theorem hostAct_next {a : HostAct} {s t : State} (h : hostAct a s = .next t) :
    (∃ l w i, a = .run l w ∧ decode s.lenW w = .ok i ∧ exec i { s with launch := l } = .next t) ∨
    (∃ l w i, a = .start l w ∧ decode s.lenW w = .ok i ∧ launchRefusal i { s with launch := l } = none ∧
      t = { accept { s with launch := l } with cmd := some i, todo := microProgram i }) ∨
    (a = .core ∧ microStep s = .next t) ∨
    (∃ f v, a = .readState f ∧ readField f s = some v ∧ t = { s with rdata := some v }) ∨
    (∃ i b, a = .writeIn i b ∧ (i < inputCount s → b = readIn i s) ∧
      t = { s with inMem := Memory.write s.inMem i b }) ∨
    (∃ j, a = .readOut j ∧ t = { s with rdata := some (.outByte (Memory.read s.outMem j)) }) ∨
    (a = .reset ∧ t = coreReset s) := by
  cases a with
  | run l w =>
    simp only [hostAct, runCommand] at h
    split at h
    · cases h
    · next i hi => exact .inl ⟨l, w, i, rfl, hi, h⟩
  | start l w =>
    simp only [hostAct, startCommand] at h
    split at h
    · cases h
    · next i hi =>
      unfold beginCommand at h
      split at h
      · cases h
      · next hr => cases h; exact .inr (.inl ⟨l, w, i, rfl, hi, hr, rfl⟩)
  | core => exact .inr (.inr (.inl ⟨rfl, h⟩))
  | readState f =>
    simp only [hostAct, hostRead] at h
    split at h
    · cases h
    · next v hv => cases h; exact .inr (.inr (.inr (.inl ⟨f, v, rfl, hv, rfl⟩)))
  | writeIn i b =>
    simp only [hostAct, hostWriteIn] at h
    split at h
    · cases h
    · next hn =>
      cases h
      refine .inr (.inr (.inr (.inr (.inl ⟨i, b, rfl, fun hi => ?_, rfl⟩))))
      by_contra hb
      exact hn ⟨hi, hb⟩
  | readOut j => cases h; exact .inr (.inr (.inr (.inr (.inr (.inl ⟨j, rfl, rfl⟩)))))
  | reset => cases h; exact .inr (.inr (.inr (.inr (.inr (.inr ⟨rfl, rfl⟩)))))

end Sys2Proof.Machine
end

