-- ==== Sys2Proof/Tests/Slice0.lean ====
section
/-! SUPPORT. Slice0.lean: small tests of one operation each, with expected values from spec/95_test_vectors.md or worked
from the tables of spec/, and, for every statement with hypotheses, a state and operands that meet them all. -/

namespace Sys2Proof.Machine

/-- An idle, initialised core with PRED = `p` and SIDX = `i`. -/
def ready (p i : Int) : State :=
  { State.reset with pred := BitVec.ofInt 11 p, sidx := BitVec.ofInt 7 i, initd := true }

/-- The bytes of a list at the indices from `a` on. -/
def placed : Nat → List Byte → Memory
  | _, [] => []
  | a, b :: bs => Memory.write (placed (a + 1) bs) a b

/-- The reset core with bytes placed in IN. -/
def holding (bs : List Byte) : State := { State.reset with inMem := placed 0 bs }

/-- The result, PRED and SIDX of a next state. -/
def seen (o : Host.Outcome State Fault Refusal) : Option (Nat × Int × Int) :=
  (nextState? o).map (fun t => (t.res.getD 999, t.pred.toInt, t.sidx.toInt))

/-- The first bytes of OUT of a next state. -/
def written (k : Nat) (o : Host.Outcome State Fault Refusal) : Option (List Nat) :=
  (nextState? o).map (fun t => (List.range k).map (fun j => (Memory.read t.outMem j).toNat))

/-! ### WellFormed: each check refuses an ill-formed term -/

theorem test_init_argument_needs_eight_bits : (Instr.init 200).wellFormed 7 = false := by decide

theorem test_encs_argument_needs_eight_bits : (Instr.encs 200).wellFormed 7 = false := by decide

theorem test_decs_argument_needs_four_bits : (Instr.decs 9).wellFormed 3 = false := by decide

theorem test_enc_count_must_fit : (Instr.enc 256).wellFormed 8 = false := by decide

theorem test_dec_count_must_fit : (Instr.dec 256).wellFormed 8 = false := by decide

/-! ### Decoding: words from R53's table and the CODE4 rows (R46) -/

theorem test_decode_init : decode 32 (.cmd 0b000#3 128) = .ok (.init 128) := rfl

theorem test_decode_encs : decode 32 (.cmd 0b001#3 130) = .ok (.encs 130) := rfl

theorem test_decode_decs : decode 32 (.cmd 0b010#3 7) = .ok (.decs 7) := rfl

theorem test_decode_enc : decode 32 (.cmd 0b011#3 5) = .ok (.enc 5) := rfl

theorem test_decode_dec : decode 32 (.cmd 0b100#3 3) = .ok (.dec 3) := rfl

theorem test_decode_code0 : decode 32 (.code4 0b0000#4) = .ok .code0 := rfl

theorem test_decode_code1 : decode 32 (.code4 0b0001#4) = .ok .code1 := rfl

theorem test_decode_code2 : decode 32 (.code4 0b0010#4) = .ok .code2 := rfl

theorem test_decode_code3 : decode 32 (.code4 0b0011#4) = .ok .code3 := rfl

theorem test_decode_code4 : decode 32 (.code4 0b0100#4) = .ok .code4 := rfl

theorem test_decode_code5 : decode 32 (.code4 0b0101#4) = .ok .code5 := rfl

theorem test_decode_code6 : decode 32 (.code4 0b0110#4) = .ok .code6 := rfl

theorem test_decode_code7 : decode 32 (.code4 0b0111#4) = .ok .code7 := rfl

theorem test_decode_code8 : decode 32 (.code4 0b1000#4) = .ok .code8 := rfl

theorem test_decode_code9 : decode 32 (.code4 0b1001#4) = .ok .code9 := rfl

theorem test_decode_code10 : decode 32 (.code4 0b1010#4) = .ok .code10 := rfl

theorem test_decode_code11 : decode 32 (.code4 0b1011#4) = .ok .code11 := rfl

theorem test_decode_code12 : decode 32 (.code4 0b1100#4) = .ok .code12 := rfl

theorem test_decode_code13 : decode 32 (.code4 0b1101#4) = .ok .code13 := rfl

theorem test_decode_code14 : decode 32 (.code4 0b1110#4) = .ok .code14 := rfl

theorem test_decode_code15 : decode 32 (.code4 0b1111#4) = .ok .code15 := rfl

theorem test_decode_reserved : decode 32 (.cmd 0b101#3 0) = .error (.reservedOp 5) := rfl

/-- Vectors 5 to 7 of spec/95_test_vectors.md section 2.8. -/
theorem test_decode_wide_operands :
    decode 32 (.cmd 0b000#3 256) = .error .operandTooWide ∧
    decode 32 (.cmd 0b001#3 300) = .error .operandTooWide ∧
    decode 32 (.cmd 0b010#3 16) = .error .operandTooWide := ⟨rfl, rfl, rfl⟩

theorem test_table_word : decodeTableWord 8 3 = some (.enc 0) ∧ decodeTableWord 8 13 = some .code13 := ⟨rfl, rfl⟩

theorem test_fetched_word_runs :
    step (State.reset.withFetchWord 8 3) = exec (.enc 0) State.reset := rfl

/-! ### The instructions (spec/95_test_vectors.md sections 2.1 to 2.7) -/

/-- INIT from reset, section 2.1 row 1. -/
theorem test_init : seen (exec (.init 128) State.reset) = some (0, 128, 0) := by decide

/-- Golden vector E1. -/
theorem test_encs_golden : seen (exec (.encs 130) (ready 128 0)) = some (7, 129, 8) := by decide

/-- Section 2.2 row 24: unclamped -24. -/
theorem test_encs_saturates : seen (exec (.encs 0) (ready 250 48)) = some (11, 0, 47) := by decide

/-- Section 2.3 row 14. -/
theorem test_decs_signed : seen (exec (.decs 10) (ready 200 24)) = some (187, 187, 23) := by decide

/-- Section 2.3 row 22: unclamped -589. -/
theorem test_decs_saturates : seen (exec (.decs 15) (ready 0 48)) = some (0, 0, 48) := by decide

/-- Program P4, ENC of an even count. -/
theorem test_enc_even :
    let o := exec (.enc 4) (holding [128, 130, 131, 120])
    seen o = some (3, 126, 15) ∧ written 4 o = some [0x80, 0x37, 0x0F, 0] := ⟨rfl, rfl⟩

/-- Program P2, ENC of an odd count. -/
theorem test_enc_odd :
    let o := exec (.enc 5) (holding [128, 130, 131, 120, 200])
    seen o = some (3, 141, 23) ∧ written 4 o = some [0x80, 0x37, 0x7F, 0] := ⟨rfl, rfl⟩

/-- Program P3. -/
theorem test_dec :
    let o := exec (.dec 3) (holding [0x80, 0x37, 0x7F])
    seen o = some (5, 141, 23) ∧ written 6 o = some [128, 129, 130, 126, 141, 0] := ⟨rfl, rfl⟩

/-- Section 2.7 row 5: the zero high nibble of a trailing byte is decoded as a code. -/
theorem test_dec_trailing_byte :
    let o := exec (.dec 2) (holding [0xFF, 0x0F])
    seen o = some (3, 254, 7) ∧ written 4 o = some [255, 254, 254, 0] := ⟨rfl, rfl⟩

/-! The CODE4 rows from (100, 21): deltas from the row of SIDX 21 in section 3, index deltas from R60. -/

theorem test_code0 : seen (exec .code0 (ready 100 21)) = some (102, 102, 20) := by decide

theorem test_code1 : seen (exec .code1 (ready 100 21)) = some (106, 106, 20) := by decide

theorem test_code2 : seen (exec .code2 (ready 100 21)) = some (110, 110, 20) := by decide

theorem test_code3 : seen (exec .code3 (ready 100 21)) = some (114, 114, 20) := by decide

theorem test_code4 : seen (exec .code4 (ready 100 21)) = some (118, 118, 23) := by decide

theorem test_code5 : seen (exec .code5 (ready 100 21)) = some (122, 122, 25) := by decide

theorem test_code6 : seen (exec .code6 (ready 100 21)) = some (126, 126, 27) := by decide

theorem test_code7 : seen (exec .code7 (ready 100 21)) = some (130, 130, 29) := by decide

theorem test_code8 : seen (exec .code8 (ready 100 21)) = some (98, 98, 20) := by decide

theorem test_code9 : seen (exec .code9 (ready 100 21)) = some (94, 94, 20) := by decide

theorem test_code10 : seen (exec .code10 (ready 100 21)) = some (90, 90, 20) := by decide

theorem test_code11 : seen (exec .code11 (ready 100 21)) = some (86, 86, 20) := by decide

theorem test_code12 : seen (exec .code12 (ready 100 21)) = some (82, 82, 23) := by decide

theorem test_code13 : seen (exec .code13 (ready 100 21)) = some (78, 78, 25) := by decide

theorem test_code14 : seen (exec .code14 (ready 100 21)) = some (74, 74, 27) := by decide

theorem test_code15 : seen (exec .code15 (ready 100 21)) = some (70, 70, 29) := by decide

/-! ### An operation in progress -/

/-- DECS 7 from (255, 48), micro-step by micro-step (section 2.9, first instance). -/
theorem test_micro_steps_of_decs :
    (List.range 5).map (fun k =>
      match Host.Core.run Sys2Proof.core (k + 1)
        { ready 255 48 with inbox := [.start State.reset.launch (.cmd 2 7)] } with
      | .next t => (State.pred t).toInt :: [(State.sidx t).toInt]
      | .fault _ => []
      | .refused _ => []) =
    [[255, 48], [844, 48], [255, 48], [255, 56], [255, 48]] := rfl

/-- ENC 4, micro-step by micro-step, makes the accesses of R33 in order. -/
theorem test_accesses_of_enc :
    accessesOf 40 { accept (holding [128, 130, 131, 120]) with todo := microProgram (.enc 4) } = encAccesses 4 ∧
    encAccesses 4 = [.readIn 0, .writeOut 0, .readIn 1, .readIn 2, .writeOut 1, .readIn 3, .writeOut 2] := ⟨rfl, rfl⟩

/-- Section 2.8 rows 8 and 9. -/
theorem test_output_capacity :
    refusal? (exec (.enc 5) { State.reset with launch := ⟨2, .separate⟩ }) = some .outputCapacity ∧
    refusal? (exec (.dec 3) { State.reset with launch := ⟨4, .separate⟩ }) = some .outputCapacity := ⟨rfl, rfl⟩

theorem test_overlap_is_refused :
    refusal? (exec (.enc 5) { State.reset with launch := ⟨3, .oneMemory 0 4⟩ }) = some .buffersOverlap ∧
    refusal? (exec (.enc 5) { State.reset with launch := ⟨3, .oneMemory 0 5⟩ }) = none := ⟨rfl, rfl⟩

theorem test_read_of_transient_on_bus : onBus 16 (.sidx (BitVec.ofInt 7 (-1))) = 0xFFFF#16 := by decide

theorem test_status_bits : statusBits { State.reset with busy := true } = 0b10#2 := by decide

/-! ### A state and operands for the hypotheses of each statement -/

/-- The state a next outcome holds. -/
def after (o : Host.Outcome State Fault Refusal) : State := (nextState? o).getD State.reset

/-- The reset core whose host presents a command and waits. -/
def presenting (op : OpField) (arg : Nat) : State :=
  { State.reset with inbox := [.run State.reset.launch (.cmd op arg)] }

/-- Three samples, encoded by ENC 3 and by ENC 2. -/
def three : State := holding [10, 200, 30]

/-- A core whose IN holds what ENC `n` wrote for `three`. -/
def streamOf (n : Nat) : State := { State.reset with inMem := (after (exec (.enc n) three)).outMem }

/-- For OpcodeMapFollowsListingOrder: the least and the greatest unassigned `op`, and a CODE4 row. -/
theorem wit_OpcodeMapFollowsListingOrder :
    decode 32 (.cmd 5 0) = .error (.reservedOp 5) ∧ decode 32 (.cmd 7 0) = .error (.reservedOp 7) ∧
    ⟨.code0, false, false, false, false, -1⟩ ∈ codeRowTable := ⟨rfl, rfl, by simp [codeRowTable]⟩

/-- For IdxRomClosedForm: a code with m2 clear and one with m2 set. -/
theorem wit_IdxRomClosedForm : idxRom 11 = -1 ∧ idxRom 12 = 2 ∧ (11#4).getLsbD 2 = false ∧ (12#4).getLsbD 2 = true := by
  decide

/-- For ClampsSaturate: both sides of each bound. -/
theorem wit_ClampsSaturate :
    clampP (-1) = 0 ∧ clampP 0 = 0 ∧ clampP 255 = 255 ∧ clampP 256 = 255 ∧
    clampI (-1) = 0 ∧ clampI 0 = 0 ∧ clampI 48 = 48 ∧ clampI 49 = 48 := by decide

theorem wit_DecodeOfEncodeIsInstruction :
    (Instr.enc (2 ^ 32 - 1)).wellFormed 32 = true ∧ (Instr.decs 15).wellFormed 4 = true := by decide

theorem wit_DecodedWordIsItsEncoding : decode 32 (.cmd 3 (2 ^ 32 - 1)) = .ok (.enc (2 ^ 32 - 1)) := rfl

theorem wit_MeaninglessCommandsAreRefused :
    step (presenting 5 0) = .refused (.reservedOp 5) ∧ step (presenting 7 0) = .refused (.reservedOp 7) ∧
    step (presenting 0 256) = .refused .operandTooWide ∧ step (presenting 1 256) = .refused .operandTooWide ∧
    step (presenting 2 16) = .refused .operandTooWide ∧
    step (presenting 3 (2 ^ 32)) = .refused .argTooWide ∧ step (presenting 4 (2 ^ 32)) = .refused .argTooWide ∧
    step { State.reset with inbox := [.start State.reset.launch (.cmd 2 16)] } = .refused .operandTooWide :=
  ⟨rfl, rfl, rfl, rfl, rfl, rfl, rfl, rfl⟩

theorem wit_StepRunsDecodedInstruction :
    (presenting 0 128).inbox = [.run State.reset.launch (.cmd 0 128)] ∧
    decode (presenting 0 128).lenW (.cmd 0 128) = .ok (.init 128) := ⟨rfl, rfl⟩

theorem wit_StartedCommandIsHeld :
    ∃ (s : State) (l : Launch) (w : CommandWord) (i : Instr), s.inbox = [.start l w] ∧ decode s.lenW w = .ok i ∧
      launchRefusal i { s with launch := l } = none :=
  ⟨{ State.reset with inbox := [.start ⟨3, .separate⟩ (.cmd 3 5)] }, _, _, _, rfl, rfl, rfl⟩

theorem wit_CommandWhileBusyIsRefused :
    (accept (presenting 3 5)).busy = true ∧
    (accept (presenting 3 5)).inbox = [.run State.reset.launch (.cmd 3 5)] ∧
    decode (accept (presenting 3 5)).lenW (.cmd 3 5) = .ok (.enc 5) ∧
    step (accept (presenting 5 0)) = .refused (.reservedOp 5) ∧
    step { accept State.reset with inbox := [.start State.reset.launch (.code4 15)] } =
      .refused .commandWhileBusy := ⟨rfl, rfl, rfl, rfl, rfl⟩

theorem wit_StepRomChecks :
    stepRom 0 = some 1 ∧ stepRom 20 = some 14 ∧ stepRom 21 = some 16 ∧ stepRom 48 = some 315 := ⟨rfl, rfl, rfl, rfl⟩

theorem wit_PackerWritesCompleteBytes :
    (ready 0 0).pkPh = false ∧ (holdCode 7 (ready 0 0)).pkPh = true := ⟨rfl, rfl⟩

theorem wit_InitSeedsState : State.reset.busy = false := rfl

/-- At both ends of the committed ranges. -/
theorem wit_EncsEncodesSample :
    (ready 0 48).busy = false ∧ (ready 0 48).initd = true ∧ Committed (ready 0 48) ∧ Committed (ready 255 0) := by
  decide

/-- For CodeRowsDecodeTheirCode: a row, and a state for each clause. -/
theorem wit_CodeRowsDecodeTheirCode :
    codeRowTable.length = 16 ∧ ⟨.code13, true, true, false, true, 4⟩ ∈ codeRowTable ∧
    (ready 255 0).busy = false ∧ (ready 255 0).initd = true ∧ Committed (ready 255 0) ∧
    State.reset.busy = false ∧ State.reset.initd = false :=
  ⟨rfl, by simp [codeRowTable], rfl, rfl, by decide, rfl, rfl⟩

theorem wit_DecsDecodesCode :
    (ready 255 48).busy = false ∧ (ready 255 48).initd = true ∧ Committed (ready 255 48) := by decide

theorem wit_SampleStepsKeepBounds : Committed (ready 0 0) ∧ Committed (ready 255 48) := by decide

theorem wit_UninitialisedStateIsRefused : State.reset.busy = false ∧ State.reset.initd = false := ⟨rfl, rfl⟩

theorem wit_DecoderFollowsEncoder :
    Committed (ready 250 48) ∧ exec (.encs 0) (ready 250 48) = .next (after (exec (.encs 0) (ready 250 48))) :=
  ⟨by decide, rfl⟩

/-- Each sign of the difference at step 1, and step 3. -/
theorem wit_ZeroStepForcesBits :
    Committed (ready 128 3) ∧ (ready 128 3).sidx.toInt ≤ 3 ∧ (ready 128 8).sidx.toInt ≤ 8 ∧
    seen (exec (.encs 128) (ready 128 3)) = some (3, 128, 2) ∧
    seen (exec (.encs 129) (ready 128 3)) = some (7, 129, 11) ∧
    seen (exec (.encs 127) (ready 128 3)) = some (15, 127, 11) ∧
    seen (exec (.encs 129) (ready 128 8)) = some (3, 129, 7) := by decide

/-- Both directions at the last row of the table: code 3 occurs at SIDX 48. -/
theorem wit_EncoderCodesAreTabulated :
    seen (exec (.encs 255) (ready 10 48)) = some (3, 255, 47) ∧ 3 ∈ encoderCodes 48 ∧
    Ready (ready 0 48) := by decide

theorem wit_StepIndexDynamics :
    seen (exec (.decs 7) (ready 100 41)) = some (255, 255, 48) ∧
    seen (exec (.decs 3) (ready 100 0)) = some (100, 100, 0) ∧
    seen (exec (.encs 100) (ready 100 1)) = some (3, 100, 0) ∧
    seen (exec (.encs 5) (after (exec (.init 9) State.reset))) = some (15, 8, 8) := by decide

theorem wit_EncCompletes :
    Launchable 1 (1 + (1 - 1 + 1) / 2) State.reset ∧ Launchable 4 (1 + (4 - 1 + 1) / 2) State.reset ∧
    Launchable 5 3 { State.reset with launch := ⟨3, .oneMemory 0 5⟩ } := by decide

theorem wit_DecCompletes :
    Launchable 1 (2 * 1 - 1) State.reset ∧ Launchable 3 5 { State.reset with launch := ⟨5, .oneMemory 5 0⟩ } := by
  decide

theorem wit_EncLeavesRestUnchanged : exec (.enc 3) three = .next (after (exec (.enc 3) three)) := rfl

theorem wit_DecLeavesRestUnchanged :
    exec (.dec 2) (streamOf 3) = .next (after (exec (.dec 2) (streamOf 3))) := rfl

/-- For LengthLaw, an odd and an even count: ENC 3 and ENC 2 return 2, and DEC 2 returns 3. -/
theorem wit_LengthLaw :
    (after (exec (.enc 3) three)).res = some 2 ∧ (after (exec (.enc 2) three)).res = some 2 ∧
    (after (exec (.dec 2) (streamOf 3))).res = some 3 := ⟨rfl, rfl, rfl⟩

/-- For ZeroCountIsNoOp: a zero count in a state that is not reset. -/
theorem wit_ZeroCountIsNoOp :
    (ready 9 9).busy = false ∧ exec (.enc 0) (ready 9 9) = .next { ready 9 9 with res := some 0 } ∧
    exec (.dec 0) (ready 9 9) = .next { ready 9 9 with res := some 0 } := ⟨rfl, rfl, rfl⟩

theorem wit_FirstSampleIdentity :
    three.outMem.wf = true ∧ (Memory.read three.inMem 0).toNat = 10 ∧
    written 1 (exec (.enc 3) three) = some [10] ∧ written 1 (exec (.dec 2) (streamOf 3)) = some [10] :=
  ⟨rfl, rfl, rfl, rfl⟩

theorem wit_SingleByteBuffer : three.outMem.wf = true ∧ Launchable 1 1 three ∧ Memory.read three.inMem 0 = 10 := by
  decide

/-- One launch for each clause, at the boundary of its range. -/
theorem wit_BadBufferLaunchIsRefused :
    exec (.enc (2 ^ 32)) State.reset = .refused .argTooWide ∧
    exec (.enc 5) { State.reset with launch := ⟨2, .separate⟩ } = .refused .outputCapacity ∧
    exec (.dec 3) { State.reset with launch := ⟨4, .separate⟩ } = .refused .outputCapacity ∧
    exec (.enc 5) { State.reset with launch := ⟨3, .oneMemory 0 4⟩ } = .refused .buffersOverlap ∧
    exec (.dec 3) { State.reset with launch := ⟨5, .oneMemory 4 0⟩ } = .refused .buffersOverlap :=
  ⟨rfl, rfl, rfl, rfl, rfl⟩

theorem wit_EncStreamHoldsEncsCodes :
    three.outMem.wf = true ∧ exec (.enc 2) three = .next (after (exec (.enc 2) three)) ∧
    exec (.init (Memory.read three.inMem 0)) three = .next (after (exec (.init 10) three)) ∧
    (encsInSequence (bytesAfterFirst three.inMem 2) (after (exec (.init 10) three))).1 = [7] :=
  ⟨rfl, rfl, rfl, rfl⟩

theorem wit_DecSamplesAreDecsSamples :
    (streamOf 2).outMem.wf = true ∧ exec (.dec 2) (streamOf 2) = .next (after (exec (.dec 2) (streamOf 2))) ∧
    exec (.init (Memory.read (streamOf 2).inMem 0)) (streamOf 2) = .next (after (exec (.init 10) (streamOf 2))) :=
  ⟨rfl, rfl, rfl⟩

/-- Two states that differ in PRED and SIDX (ENC, DEC, INIT), and two that differ in OUT (ENCS, DECS). -/
theorem wit_ResultsDependOnInputsOnly :
    exec (.enc 2) (ready 9 9) = .next (after (exec (.enc 2) (ready 9 9))) ∧
    exec (.enc 2) (ready 50 3) = .next (after (exec (.enc 2) (ready 50 3))) ∧
    exec (.dec 2) (ready 9 9) = .next (after (exec (.dec 2) (ready 9 9))) ∧
    exec (.dec 2) (ready 50 3) = .next (after (exec (.dec 2) (ready 50 3))) ∧
    exec (.encs 7) (ready 9 9) = .next (after (exec (.encs 7) (ready 9 9))) ∧
    exec (.encs 7) { ready 9 9 with outMem := [(0, 1)] } =
      .next (after (exec (.encs 7) { ready 9 9 with outMem := [(0, 1)] })) ∧
    exec (.decs 7) (ready 9 9) = .next (after (exec (.decs 7) (ready 9 9))) ∧
    exec (.init 7) (ready 9 9) = .next (after (exec (.init 7) (ready 9 9))) :=
  ⟨rfl, rfl, rfl, rfl, rfl, rfl, rfl, rfl⟩

theorem wit_RoundTripFollowsPredictor :
    three.outMem.wf = true ∧ (streamOf 3).outMem.wf = true ∧
    exec (.enc 3) three = .next (after (exec (.enc 3) three)) ∧
    (∀ j, j < encLength 3 →
      Memory.read (streamOf 3).inMem j = Memory.read (after (exec (.enc 3) three)).outMem j) ∧
    exec (.dec (encLength 3)) (streamOf 3) = .next (after (exec (.dec 2) (streamOf 3))) :=
  ⟨rfl, rfl, rfl, fun _ _ => rfl, rfl⟩

theorem wit_EvenLengthDecodesOneMore :
    three.outMem.wf = true ∧ (streamOf 2).outMem.wf = true ∧
    exec (.enc 2) three = .next (after (exec (.enc 2) three)) ∧
    (∀ j, j < encLength 2 →
      Memory.read (streamOf 2).inMem j = Memory.read (after (exec (.enc 2) three)).outMem j) ∧
    exec (.dec (encLength 2)) (streamOf 2) = .next (after (exec (.dec 2) (streamOf 2))) ∧
    (after (exec (.dec 2) (streamOf 2))).res = some 3 :=
  ⟨rfl, rfl, rfl, fun _ _ => rfl, rfl, rfl⟩

/-- For MicroStepsReachTheMeaning, EncAccessOrder and EncCompletes: ENC 2 started, and run. -/
theorem wit_MicroStepsReachTheMeaning :
    three.inbox = [] ∧ Idle three ∧
    beginCommand (.enc 2) three = .next (after (beginCommand (.enc 2) three)) ∧
    exec (.enc 2) three = .next (after (exec (.enc 2) three)) := ⟨rfl, by decide, rfl, rfl⟩

theorem wit_EncAccessOrder :
    three.inbox = [] ∧ Idle three ∧ beginCommand (.enc 2) three = .next (after (beginCommand (.enc 2) three)) :=
  ⟨rfl, by decide, rfl⟩

theorem wit_DecAccessOrder :
    (streamOf 2).inbox = [] ∧ Idle (streamOf 2) ∧
    beginCommand (.dec 2) (streamOf 2) = .next (after (beginCommand (.dec 2) (streamOf 2))) :=
  ⟨rfl, ⟨rfl, rfl, rfl⟩, rfl⟩

theorem wit_SampleOperationsTouchNoBuffer :
    (∀ n, Instr.encs 7 ≠ .enc n) ∧ (∀ m, Instr.encs 7 ≠ .dec m) ∧ (ready 9 9).inbox = [] ∧ Idle (ready 9 9) ∧
    beginCommand (.encs 7) (ready 9 9) = .next (after (beginCommand (.encs 7) (ready 9 9))) :=
  ⟨by simp, by simp, rfl, ⟨rfl, rfl, rfl⟩, rfl⟩

theorem wit_MicroStepsOfSampleOperations :
    State.reset.inbox = [] ∧ Idle State.reset ∧ State.reset.initd = false ∧
    beginCommand (.init 7) State.reset = .next (after (beginCommand (.init 7) State.reset)) ∧
    (ready 255 48).inbox = [] ∧ Idle (ready 255 48) ∧ Committed (ready 255 48) ∧ (ready 255 48).initd = true ∧
    beginCommand (.init 7) (ready 255 48) = .next (after (beginCommand (.init 7) (ready 255 48))) ∧
    beginCommand (.encs 7) (ready 255 48) = .next (after (beginCommand (.encs 7) (ready 255 48))) ∧
    exec (.encs 7) (ready 255 48) = .next (after (exec (.encs 7) (ready 255 48))) ∧
    beginCommand (.decs 7) (ready 255 48) = .next (after (beginCommand (.decs 7) (ready 255 48))) ∧
    exec (.decs 7) (ready 255 48) = .next (after (exec (.decs 7) (ready 255 48))) :=
  ⟨rfl, ⟨rfl, rfl, rfl⟩, rfl, rfl, rfl, ⟨rfl, rfl, rfl⟩, by decide, rfl, rfl, rfl, rfl, rfl, rfl⟩

/-- A micro-step that writes OUT, and one that does not. -/
theorem wit_MicroStepWritesAtMostOneByte :
    let s : State := { accept State.reset with todo := [.emit 9] }
    microStep s = .next (after (microStep s)) ∧ nextAccess s = some (.writeOut 0) ∧
    nextAccess (accept State.reset) = none := ⟨rfl, rfl, rfl⟩

theorem wit_StateReadReturnsRegister :
    ({ ready 1 2 with inbox := [.readState .pred] } : State).initd = true ∧
    step { ready 1 2 with inbox := [.readState .pred] } = .next { ready 1 2 with rdata := some (.pred 1) } ∧
    step { State.reset with inbox := [.readState .busy] } = .next { State.reset with rdata := some (.busy false) } ∧
    step { State.reset with inbox := [.readState .sidx] } = .refused .uninitialised := ⟨rfl, rfl, rfl, rfl⟩

/-- Reads of OUT when idle, right after a micro-step that wrote the byte read, and after one that wrote another. -/
theorem wit_OutReadReturnsByte :
    let s : State := { accept State.reset with todo := [.emit 9] }
    microStep s = .next (after (microStep s)) ∧ nextAccess s = some (.writeOut 0) ∧
    step { after (microStep s) with inbox := [.readOut 0] } =
      .next { after (microStep s) with rdata := some (.outByte 9) } ∧
    nextAccess s ≠ some (.writeOut 1) ∧
    step { after (microStep s) with inbox := [.readOut 1] } =
      .next { after (microStep s) with rdata := some (.outByte 0) } ∧
    step { State.reset with inbox := [.readOut 5] } = .next { State.reset with rdata := some (.outByte 0) } :=
  ⟨rfl, rfl, rfl, by decide, rfl, rfl⟩

/-- The last byte that the ENC in progress reads, and the first that it does not. -/
theorem wit_InputMustStayStable :
    let s : State := { accept State.reset with cmd := some (.enc 3) }
    step { s with inbox := [.writeIn 2 9] } = .refused .inputChanged ∧
    step { s with inbox := [.writeIn 3 9] } = .next { s with inMem := [(3, 9)] } := ⟨rfl, rfl⟩

theorem wit_ResetEventLeavesSpecValues :
    ({ accept (ready 1 2) with inbox := [.reset] } : State).inbox = [.reset] := rfl

/-- A step that is no reset, with INITD = 1. -/
theorem wit_OnlyResetClearsInitd :
    step { ready 1 2 with inbox := [.readOut 0] } = .next { ready 1 2 with rdata := some (.outByte 0) } ∧
    (ready 1 2).initd = true ∧ ∀ rest, ({ ready 1 2 with inbox := [.readOut 0] } : State).inbox ≠ .reset :: rest :=
  ⟨rfl, rfl, by simp⟩

theorem wit_HostCannotWriteStateRegister :
    step { ready 1 2 with inbox := [.writeIn 0 9] } = .next { ready 1 2 with inMem := [(0, 9)] } ∧
    Idle { ready 1 2 with inbox := [.writeIn 0 9] } ∧
    (∀ l w rest, ({ ready 1 2 with inbox := [.writeIn 0 9] } : State).inbox ≠ .run l w :: rest) ∧
    ∀ rest, ({ ready 1 2 with inbox := [.writeIn 0 9] } : State).inbox ≠ .reset :: rest :=
  ⟨rfl, ⟨rfl, rfl, rfl⟩, by simp, by simp⟩

/-- A core in the middle of a sample step, with an unclamped PRED, meets the invariant and steps. -/
theorem wit_StepKeepsInvariant :
    let s : State :=
      { accept (ready (-589) 48) with
        cmd := some (.decs 15), todo := [.clampPred, .adjustSidx 15, .clampSidx, .finish .pred] }
    Inv s ∧ step s = .next (after (step s)) := ⟨by decide, rfl⟩

theorem wit_StepNeverFaults : Inv (ready 255 48) := by decide

/-- A run from reset that ends idle and initialised. -/
theorem wit_CommittedStateInEveryRun :
    let acts : List HostAct := [.run State.reset.launch (.cmd 0 128), .run State.reset.launch (.cmd 2 7)]
    Memory.wf [(0, 5)] = true ∧
    ∃ t : State,
      Host.Core.run Sys2Proof.core 2 { State.reset with inbox := acts, inMem := [(0, 5)], lenW := 8 } = .next t ∧
      t.busy = false ∧ t.initd = true := ⟨rfl, _, rfl, rfl, rfl⟩

end Sys2Proof.Machine
end

/-! PROOFS. The invariant's clauses, read apart: those that hold idle or busy alike (`DataInv`), and those of an idle
core (`Resting`). Every named operation keeps them. -/
section
namespace Sys2Proof.Machine

/-- The clauses of `Inv` that hold idle or busy alike: canonical spaces, transient ranges and counters. -/
def DataInv (s : State) : Prop :=
  (s.inMem.wf = true ∧ s.outMem.wf = true) ∧ InTransientRange s ∧ (s.idxI ≤ s.cnt ∧ s.cnt < 2 ^ s.lenW)

/-- The clauses of `Inv` for an idle core. They do not speak of BUSY, so they hold of a just accepted command's state
too. -/
def Resting (s : State) : Prop :=
  DataInv s ∧ s.todo = [] ∧ s.cmd = none ∧ s.pkPh = false ∧ s.upPh = false ∧ (s.initd = true → Committed s)

theorem inv_iff_of_idle {s : State} (hb : s.busy = false) : Inv s ↔ Resting s := by
  constructor
  · rintro ⟨hmem, hrange, hcount, hidle, -⟩
    exact ⟨⟨hmem, hrange, hcount⟩, hidle hb⟩
  · rintro ⟨⟨hmem, hrange, hcount⟩, hrest⟩
    exact ⟨hmem, hrange, hcount, fun _ => hrest, by simp [hb]⟩

theorem inv_iff_of_busy {s : State} (hb : s.busy = true) :
    Inv s ↔ DataInv s ∧ s.cmd ≠ none ∧ sound s.lenW (knownOf s) s.todo = true := by
  constructor
  · rintro ⟨hmem, hrange, hcount, -, hbusy⟩
    exact ⟨⟨hmem, hrange, hcount⟩, hbusy hb⟩
  · rintro ⟨⟨hmem, hrange, hcount⟩, hrun⟩
    exact ⟨hmem, hrange, hcount, by simp [hb], fun _ => hrun⟩

/-! ### What Pack and PackFlush leave unchanged -/

@[simp] theorem pack_upPh (c : Code) (s : State) : (pack c s).upPh = s.upPh := by unfold pack; split <;> rfl
@[simp] theorem pack_busy (c : Code) (s : State) : (pack c s).busy = s.busy := by unfold pack; split <;> rfl
@[simp] theorem pack_cmd (c : Code) (s : State) : (pack c s).cmd = s.cmd := by unfold pack; split <;> rfl
@[simp] theorem pack_todo (c : Code) (s : State) : (pack c s).todo = s.todo := by unfold pack; split <;> rfl
@[simp] theorem pack_lenW (c : Code) (s : State) : (pack c s).lenW = s.lenW := by unfold pack; split <;> rfl

@[simp] theorem packFlush_busy (s : State) : (packFlush s).busy = s.busy := by unfold packFlush; split <;> rfl
@[simp] theorem packFlush_cmd (s : State) : (packFlush s).cmd = s.cmd := by unfold packFlush; split <;> rfl
@[simp] theorem packFlush_todo (s : State) : (packFlush s).todo = s.todo := by unfold packFlush; split <;> rfl
@[simp] theorem packFlush_lenW (s : State) : (packFlush s).lenW = s.lenW := by unfold packFlush; split <;> rfl

/-! ### The operations keep the data clauses -/

theorem DataInv.setPred {s : State} {x : Int} (h : DataInv s) (h0 : -589 ≤ x) (h1 : x ≤ 844) :
    DataInv (setPred x s) := by
  obtain ⟨hmem, ⟨-, hsidx⟩, hcount⟩ := h
  refine ⟨hmem, ⟨?_, hsidx⟩, hcount⟩
  rw [setPred_pred, predReg_toInt (by omega) (by omega)]
  exact ⟨h0, h1⟩

theorem DataInv.setSidx {s : State} {x : Int} (h : DataInv s) (h0 : -1 ≤ x) (h1 : x ≤ 56) :
    DataInv (setSidx x s) := by
  obtain ⟨hmem, ⟨hpred, -⟩, hcount⟩ := h
  refine ⟨hmem, ⟨hpred, ?_⟩, hcount⟩
  rw [setSidx_sidx, sidxReg_toInt (by omega) (by omega)]
  exact ⟨h0, h1⟩

theorem DataInv.setPred_byte {s : State} (h : DataInv s) (b : Byte) : DataInv (Machine.setPred b.toNat s) :=
  h.setPred (by omega) (by have := b.isLt; omega)

theorem DataInv.movePred {s : State} {d : Nat} (h : DataInv s) (c : Code) (hp : PredCommitted s) (hd : d ≤ 589) :
    DataInv (movePred c d s) :=
  have hmoved := moved_range (c := c) hp.1 hp.2 hd
  h.setPred hmoved.1 hmoved.2

theorem DataInv.clampPred {s : State} (h : DataInv s) : DataInv (clampPred s) :=
  have hclamp := clampP_range s.pred.toInt
  h.setPred (by omega) (by omega)

theorem DataInv.adjustSidx {s : State} (h : DataInv s) (c : Code) (hi : SidxCommitted s) : DataInv (adjustSidx c s) :=
  have hdelta := idxRom_range c
  h.setSidx (by omega) (by omega)

theorem DataInv.clampSidx {s : State} (h : DataInv s) : DataInv (clampSidx s) :=
  have hclamp := clampI_range s.sidx.toInt
  h.setSidx (by omega) (by omega)

theorem DataInv.emitByte {s : State} (h : DataInv s) (b : Byte) : DataInv (emitByte b s) := by
  obtain ⟨⟨hin, hout⟩, hrest⟩ := h
  exact ⟨⟨hin, write_wf _ _ _ hout⟩, hrest⟩

theorem DataInv.advanceIn {s : State} (h : DataInv s) (hi : s.idxI < s.cnt) : DataInv (advanceIn s) := by
  obtain ⟨hmem, hrange, -, hcount⟩ := h
  exact ⟨hmem, hrange, hi, hcount⟩

theorem DataInv.beginEnc {s : State} {n : Nat} (h : DataInv s) (hn : n < 2 ^ s.lenW) : DataInv (beginEnc n s) := by
  obtain ⟨hmem, hrange, -⟩ := h
  exact ⟨hmem, hrange, Nat.zero_le n, hn⟩

theorem DataInv.beginDec {s : State} {m : Nat} (h : DataInv s) (hm : m < 2 ^ s.lenW) : DataInv (beginDec m s) := by
  obtain ⟨hmem, hrange, -⟩ := h
  exact ⟨hmem, hrange, Nat.zero_le m, hm⟩

theorem DataInv.pack {s : State} (h : DataInv s) (c : Code) : DataInv (pack c s) := by
  cases hp : s.pkPh with
  | false => rw [pack_first c hp]; exact h
  | true => rw [pack_second c hp]; exact h.emitByte _

theorem DataInv.packFlush {s : State} (h : DataInv s) : DataInv (packFlush s) := by
  cases hp : s.pkPh with
  | false => rw [packFlush_empty hp]; exact h
  | true => rw [packFlush_held hp]; exact h.emitByte _

theorem DataInv.seed {s : State} (h : DataInv s) (b : Byte) : DataInv (seed b s) :=
  (h.setPred_byte b).setSidx (x := 0) (by decide) (by decide)

/-- A whole sample step keeps the data clauses, its transients included (R71, R81). -/
theorem DataInv.sampleStep {s : State} {d : Nat} (h : DataInv s) (c : Code) (hc : Committed s) (hd : d ≤ 589) :
    DataInv (stateClamp c (Machine.movePred c d s)) :=
  ((h.movePred c hc.1 hd).clampPred.adjustSidx c hc.2).clampSidx

/-- A sample step of the encoder moves PRED by at most 589 and clamps the state. -/
theorem encStep_eq_stateClamp {b : Byte} {s t : State} {c : Code} (h : encStep b s = some (c, t)) :
    ∃ d ≤ 589, t = stateClamp c (movePred c d s) := by
  obtain ⟨step, hstep, -, ht, -⟩ := encStep_some h
  exact ⟨_, quantise_delta_le _ _ _ (currentStep_some hstep).2.2, ht⟩

/-- A sample step of the decoder moves PRED by at most 589 and clamps the state. -/
theorem decStep_eq_stateClamp {c : Code} {s t : State} {y : Byte} (h : decStep c s = some (y, t)) :
    ∃ d ≤ 589, t = stateClamp c (movePred c d s) := by
  obtain ⟨step, hstep, -, ht, -⟩ := decStep_some h
  exact ⟨_, codeDelta_le _ _ (currentStep_some hstep).2.2, ht⟩

end Sys2Proof.Machine
end

/-! PROOFS. A command run to completion (R5) keeps the invariant: first the sample operations, then the loops of ENC
and DEC. -/
section
namespace Sys2Proof.Machine

theorem Resting.seed {s : State} (h : Resting s) (b : Byte) : Resting (seed b s) := by
  obtain ⟨hdata, htodo, hcmd, hpk, hup, -⟩ := h
  exact ⟨hdata.seed b, htodo, hcmd, hpk, hup, fun _ => seed_committed b s⟩

theorem Resting.sampleStep {s : State} {d : Nat} (h : Resting s) (c : Code) (hi : s.initd = true) (hd : d ≤ 589) :
    Resting (stateClamp c (movePred c d s)) := by
  obtain ⟨hdata, htodo, hcmd, hpk, hup, hcommitted⟩ := h
  exact ⟨hdata.sampleStep c (hcommitted hi) hd, htodo, hcmd, hpk, hup, fun _ => stateClamp_committed c _⟩

theorem inv_returnResult {s : State} (r : Nat) (h : Resting s) : Inv (returnResult r s) :=
  (inv_iff_of_idle rfl).mpr h

theorem execInit_keeps_inv {b : Byte} {s t : State} (hs : Inv s) (h : execInit b s = .next t) : Inv t := by
  obtain ⟨hb, rfl⟩ := execInit_next.mp h
  have hrest : Resting (accept s) := (inv_iff_of_idle hb).mp hs
  exact inv_returnResult 0 (hrest.seed b)

theorem execEncs_keeps_inv {b : Byte} {s t : State} (hs : Inv s) (h : execEncs b s = .next t) : Inv t := by
  obtain ⟨⟨hb, hi⟩, c, u, hu, rfl⟩ := execEncs_next.mp h
  obtain ⟨d, hd, rfl⟩ := encStep_eq_stateClamp hu
  have hrest : Resting (accept s) := (inv_iff_of_idle hb).mp hs
  exact inv_returnResult _ (hrest.sampleStep c hi hd)

theorem decodeCommand_keeps_inv {c : Code} {s t : State} (hs : Inv s) (h : decodeCommand c s = .next t) : Inv t := by
  obtain ⟨⟨hb, hi⟩, y, u, hu, rfl⟩ := decodeCommand_next.mp h
  obtain ⟨d, hd, rfl⟩ := decStep_eq_stateClamp hu
  have hrest : Resting (accept s) := (inv_iff_of_idle hb).mp hs
  exact inv_returnResult _ (hrest.sampleStep c hi hd)

/-! ### The loops of ENC and DEC -/

/-- What a pass of a buffer operation's loop needs and leaves, with `k` passes to come: PRED and SIDX are committed and
`k` bytes of IN are not yet read. Packer and unpacker are said apart, since each loop uses one of them. -/
def InLoop (k : Nat) (s : State) : Prop :=
  DataInv s ∧ Committed s ∧ s.idxI + k = s.cnt ∧ s.todo = [] ∧ s.cmd = none

theorem InLoop.advanceIn {k : Nat} {s : State} (h : InLoop (k + 1) s) : InLoop k (advanceIn s) := by
  obtain ⟨hdata, hcommitted, hleft, hrest⟩ := h
  refine ⟨hdata.advanceIn (by omega), hcommitted, ?_, hrest⟩
  rw [advanceIn_idxI, advanceIn_cnt]
  omega

theorem InLoop.sampleStep {k d : Nat} {s : State} (h : InLoop k s) (c : Code) (hd : d ≤ 589) :
    InLoop k (stateClamp c (movePred c d s)) := by
  obtain ⟨hdata, hcommitted, hrest⟩ := h
  exact ⟨hdata.sampleStep c hcommitted hd, stateClamp_committed c _, hrest⟩

theorem InLoop.emitByte {k : Nat} {s : State} (h : InLoop k s) (b : Byte) : InLoop k (emitByte b s) := by
  obtain ⟨hdata, hrest⟩ := h
  exact ⟨hdata.emitByte b, hrest⟩

theorem InLoop.releaseHigh {k : Nat} {s : State} (h : InLoop k s) : InLoop k (releaseHigh s) := h

theorem InLoop.pack {k : Nat} {s : State} (h : InLoop k s) (c : Code) : InLoop k (pack c s) := by
  cases hp : s.pkPh with
  | false => rw [pack_first c hp]; exact h
  | true => rw [pack_second c hp]; exact h.emitByte _

/-- The first byte seeds the state, so the loop starts committed with one byte read. -/
theorem seedFromBuffer_inLoop {k : Nat} {s : State} (hdata : DataInv s) (hi : s.idxI = 0) (hn : s.cnt = k + 1)
    (htodo : s.todo = []) (hcmd : s.cmd = none) : InLoop k (seedFromBuffer s) := by
  have hnext : DataInv (advanceIn s) := hdata.advanceIn (by omega)
  have hseed : InLoop k (seed (readIn 0 s) (advanceIn s)) := by
    refine ⟨hnext.seed _, seed_committed _ _, ?_, htodo, hcmd⟩
    rw [seed_idxI, seed_cnt, advanceIn_idxI, advanceIn_cnt]
    omega
  exact hseed.emitByte _

theorem encIteration_keeps {k : Nat} {s t : State} (h : encIteration s = some t) (hs : InLoop (k + 1) s) :
    InLoop k t ∧ t.upPh = s.upPh := by
  obtain ⟨⟨c, u⟩, hu, rfl⟩ := Option.map_eq_some_iff.mp h
  obtain ⟨d, hd, rfl⟩ := encStep_eq_stateClamp hu
  exact ⟨(hs.advanceIn.sampleStep c hd).pack c, pack_upPh c _⟩

theorem encLoop_keeps {k : Nat} {s t : State} (h : encLoop k s = some t) (hs : InLoop k s) :
    InLoop 0 t ∧ t.upPh = s.upPh := by
  induction k generalizing s with
  | zero => cases h; exact ⟨hs, rfl⟩
  | succ k ih =>
    obtain ⟨u, hu, hloop⟩ := Option.bind_eq_some_iff.mp h
    obtain ⟨hu, huUp⟩ := encIteration_keeps hu hs
    obtain ⟨ht, htUp⟩ := ih hloop hu
    exact ⟨ht, htUp.trans huUp⟩

theorem decIteration_keeps {k : Nat} {s t : State} (h : decIteration s = some t) (hs : InLoop (k + 1) s) :
    InLoop k t ∧ t.pkPh = s.pkPh ∧ t.upPh = false := by
  dsimp only [decIteration] at h
  split at h
  · cases h
  · next y₁ t₁ h₁ =>
    obtain ⟨⟨y₂, t₂⟩, h₂, rfl⟩ := Option.map_eq_some_iff.mp h
    obtain ⟨d₁, hd₁, rfl⟩ := decStep_eq_stateClamp h₁
    obtain ⟨d₂, hd₂, rfl⟩ := decStep_eq_stateClamp h₂
    have hheld : InLoop k (holdHigh (readIn s.idxI s) (advanceIn s)) := hs.advanceIn
    have hlow := (hheld.sampleStep (lowNibble (readIn s.idxI s)) hd₁).emitByte y₁
    exact ⟨(hlow.releaseHigh.sampleStep _ hd₂).emitByte y₂, rfl, rfl⟩

theorem decLoop_keeps {k : Nat} {s t : State} (h : decLoop k s = some t) (hs : InLoop k s) (hup : s.upPh = false) :
    InLoop 0 t ∧ t.pkPh = s.pkPh ∧ t.upPh = false := by
  induction k generalizing s with
  | zero => cases h; exact ⟨hs, rfl, hup⟩
  | succ k ih =>
    obtain ⟨u, hu, hloop⟩ := Option.bind_eq_some_iff.mp h
    obtain ⟨hu, huPk, huUp⟩ := decIteration_keeps hu hs
    obtain ⟨ht, htPk, htUp⟩ := ih hloop hu huUp
    exact ⟨ht, htPk.trans huPk, htUp⟩

theorem InLoop.resting {k : Nat} {s : State} (h : InLoop k s) (hpk : s.pkPh = false) (hup : s.upPh = false) :
    Resting s := by
  obtain ⟨hdata, hcommitted, -, htodo, hcmd⟩ := h
  exact ⟨hdata, htodo, hcmd, hpk, hup, fun _ => hcommitted⟩

/-- PackFlush leaves the packer empty (R74). -/
theorem InLoop.packFlush_resting {k : Nat} {s : State} (h : InLoop k s) (hup : s.upPh = false) :
    Resting (packFlush s) := by
  cases hp : s.pkPh with
  | false => rw [packFlush_empty hp]; exact h.resting hp hup
  | true => rw [packFlush_held hp]; exact (h.emitByte _).resting (s := releasePack _) rfl hup

theorem encBody_resting {n r : Nat} {s t : State} (hs : Resting s) (hn : n < 2 ^ s.lenW)
    (h : encBody n s = some (r, t)) : Resting t := by
  unfold encBody at h
  split at h
  · cases h; exact hs
  · next hpos =>
    obtain ⟨hdata, htodo, hcmd, -, hup, -⟩ := hs
    obtain ⟨u, hu, hpair⟩ := Option.map_eq_some_iff.mp h
    cases hpair
    have hstart : InLoop (n - 1) (seedFromBuffer (beginEnc n s)) :=
      seedFromBuffer_inLoop (hdata.beginEnc hn) rfl (Nat.succ_pred hpos).symm htodo hcmd
    obtain ⟨hend, hendUp⟩ := encLoop_keeps hu hstart
    exact hend.packFlush_resting (hendUp.trans hup)

theorem decBody_resting {m r : Nat} {s t : State} (hs : Resting s) (hm : m < 2 ^ s.lenW)
    (h : decBody m s = some (r, t)) : Resting t := by
  unfold decBody at h
  split at h
  · cases h; exact hs
  · next hpos =>
    obtain ⟨hdata, htodo, hcmd, hpk, -, -⟩ := hs
    obtain ⟨u, hu, hpair⟩ := Option.map_eq_some_iff.mp h
    cases hpair
    have hstart : InLoop (m - 1) (seedFromBuffer (beginDec m s)) :=
      seedFromBuffer_inLoop (hdata.beginDec hm) rfl (Nat.succ_pred hpos).symm htodo hcmd
    obtain ⟨hend, hendPk, hendUp⟩ := decLoop_keeps hu hstart rfl
    exact hend.resting (hendPk.trans hpk) hendUp

theorem execEnc_keeps_inv {n : Nat} {s t : State} (hs : Inv s) (h : execEnc n s = .next t) : Inv t := by
  obtain ⟨⟨hb, hn, -⟩, r, u, hu, rfl⟩ := execEnc_next.mp h
  have hrest : Resting (accept s) := (inv_iff_of_idle hb).mp hs
  exact inv_returnResult r (encBody_resting hrest hn hu)

theorem execDec_keeps_inv {m : Nat} {s t : State} (hs : Inv s) (h : execDec m s = .next t) : Inv t := by
  obtain ⟨⟨hb, hm, -⟩, r, u, hu, rfl⟩ := execDec_next.mp h
  have hrest : Resting (accept s) := (inv_iff_of_idle hb).mp hs
  exact inv_returnResult r (decBody_resting hrest hm hu)

/-- Every instruction's meaning keeps the invariant. The sixteen CODE4 rows are one case: each is the decoder step. -/
theorem exec_keeps_inv {i : Instr} {s t : State} (hs : Inv s) (h : exec i s = .next t) : Inv t := by
  cases i
  case init b => exact execInit_keeps_inv hs h
  case encs b => exact execEncs_keeps_inv hs h
  case enc n => exact execEnc_keeps_inv hs h
  case dec m => exact execDec_keeps_inv hs h
  all_goals exact decodeCommand_keeps_inv hs h

end Sys2Proof.Machine
end

/-! PROOFS. An operation in progress: every micro-step keeps the invariant (R71). `sound` says of the remaining
micro-steps what each of them needs; here is what each operation makes known, and that the steps it schedules are sound
where it began. -/
section
namespace Sys2Proof.Machine

/-! ### What an operation makes known -/

theorem knownOf_setPred {x : Int} {s : State} (h : PredCommitted (setPred x s)) :
    knownOf (setPred x s) = { knownOf s with pred := true } :=
  congrArg (fun p => { knownOf s with pred := p }) (decide_eq_true h)

theorem knownOf_setSidx {x : Int} {s : State} (h : SidxCommitted (setSidx x s)) :
    knownOf (setSidx x s) = { knownOf s with sidx := true } :=
  congrArg (fun q => { knownOf s with sidx := q }) (decide_eq_true h)

theorem knownOf_setPred_byte (b : Byte) (s : State) :
    knownOf (setPred b.toNat s) = { knownOf s with pred := true } := by
  refine knownOf_setPred ?_
  rw [PredCommitted, setPred_pred, predReg_ofByte]
  have := b.isLt
  omega

theorem knownOf_zeroSidx (s : State) : knownOf (setSidx 0 s) = { knownOf s with sidx := true } := rfl

theorem knownOf_beginEnc {n : Nat} (hn : 0 < n) (s : State) :
    knownOf (beginEnc n s) = { knownOf s with count := true, packer := true } :=
  congrArg (fun c => { knownOf s with count := c, packer := true }) (decide_eq_true hn)

theorem knownOf_beginDec {m : Nat} (hm : 0 < m) (s : State) :
    knownOf (beginDec m s) = { knownOf s with count := true, unpacker := true } :=
  congrArg (fun c => { knownOf s with count := c, unpacker := true }) (decide_eq_true hm)

theorem knownOf_packFlush (s : State) : knownOf (packFlush s) = { knownOf s with packer := true } := by
  cases hp : s.pkPh with
  | false => rw [packFlush_empty hp]; simp [knownOf, hp]
  | true => rw [packFlush_held hp]; rfl

/-- Whatever the packer holds after Pack, everything else that was known still is. -/
theorem le_knownOf_pack (c : Code) (s : State) : Known.le { knownOf s with packer := false } (knownOf (pack c s)) := by
  cases hp : s.pkPh with
  | false => rw [pack_first c hp]; exact ⟨id, id, rfl, id, nofun, id⟩
  | true => rw [pack_second c hp]; exact ⟨id, id, rfl, id, nofun, id⟩

theorem le_knownOf_adjustSidx (c : Code) (s : State) :
    Known.le { knownOf s with sidx := false } (knownOf (adjustSidx c s)) :=
  ⟨id, nofun, rfl, id, id, id⟩

theorem le_knownOf_advanceIn (s : State) : Known.le { knownOf s with count := false } (knownOf (advanceIn s)) :=
  ⟨id, id, rfl, nofun, id, id⟩

theorem committed_of_canStep {s : State} (h : (knownOf s).canStep = true) : s.initd = true ∧ Committed s := by
  simpa [Known.canStep, knownOf, and_assoc] using h

theorem canFinish_of_canStep {k : Known} (h : k.canStep = true) (hpk : k.packer = true) (hup : k.unpacker = true) :
    k.canFinish = true := by
  simp only [Known.canStep, Bool.and_eq_true] at h
  simp [Known.canFinish, h, hpk, hup]

theorem canStep_of_sound_encSample {L : Nat} {k : Known} {b : Byte} {toPacker : Bool} {ms : List Micro}
    (h : sound L k (.encSample b toPacker :: ms) = true) : k.canStep = true := by
  cases toPacker <;> simp only [sound, Bool.and_eq_true] at h
  · exact h.1.1
  · exact h.1

/-- The State Clamp commits both fields, whatever is known of PRED before it (R63). -/
theorem sound_clampMicros {L : Nat} {k : Known} {ms : List Micro} (c : Code) (hi : k.sidx = true)
    (h : sound L { k with pred := true, sidx := true } ms = true) : sound L k (clampMicros c ++ ms) = true := by
  simpa [clampMicros, sound, hi] using h

/-- The clamps of a sample step restore what was known where it began. -/
theorem sound_sampleStep {L d : Nat} {s : State} {ms : List Micro} (c : Code) (hstep : (knownOf s).canStep = true)
    (h : sound L (knownOf s) ms = true) : sound L (knownOf (movePred c d s)) (clampMicros c ++ ms) = true := by
  obtain ⟨-, hp, hi⟩ := committed_of_canStep hstep
  have hsame : { knownOf (movePred c d s) with pred := true, sidx := true } = knownOf s :=
    congrArg₂ (fun p q => { knownOf s with pred := p, sidx := q }) (decide_eq_true hp).symm (decide_eq_true hi).symm
  exact sound_clampMicros c (decide_eq_true hi) (hsame ▸ h)

/-! ### One micro-step -/

/-- Only the completion of an operation changes BUSY or the command held (R14, R28); nothing changes `LEN_W`. -/
theorem microOp_frame {m : Micro} {s t : State} (hm : ∀ r, m ≠ .finish r) (h : microOp m s = some t) :
    t.busy = s.busy ∧ t.cmd = s.cmd ∧ t.lenW = s.lenW := by
  cases m
  case finish r => exact absurd rfl (hm r)
  case encSample b toPacker =>
    obtain ⟨step, -, rfl⟩ := Option.map_eq_some_iff.mp h
    exact ⟨rfl, rfl, rfl⟩
  case decSample c =>
    obtain ⟨step, -, rfl⟩ := Option.map_eq_some_iff.mp h
    exact ⟨rfl, rfl, rfl⟩
  case pack c =>
    cases h
    exact ⟨pack_busy c s, pack_cmd c s, pack_lenW c s⟩
  case packFlush =>
    cases h
    exact ⟨packFlush_busy s, packFlush_cmd s, packFlush_lenW s⟩
  case encNext =>
    simp only [microOp] at h
    split at h <;> cases h <;> exact ⟨rfl, rfl, rfl⟩
  case decNext =>
    simp only [microOp] at h
    split at h <;> cases h <;> exact ⟨rfl, rfl, rfl⟩
  all_goals cases h; exact ⟨rfl, rfl, rfl⟩

/-- A micro-step whose needs are met keeps the data clauses. -/
theorem microOp_keeps_dataInv {m : Micro} {ms : List Micro} {s t : State} (hs : DataInv s)
    (hsound : sound s.lenW (knownOf s) (m :: ms) = true) (h : microOp m s = some t) : DataInv t := by
  cases m
  case encSample b toPacker =>
    obtain ⟨step, hstep, rfl⟩ := Option.map_eq_some_iff.mp h
    obtain ⟨-, -, hword⟩ := currentStep_some hstep
    obtain ⟨-, hp, -⟩ := committed_of_canStep (canStep_of_sound_encSample hsound)
    exact hs.movePred _ hp (quantise_delta_le _ _ _ hword)
  case decSample c =>
    obtain ⟨step, hstep, rfl⟩ := Option.map_eq_some_iff.mp h
    obtain ⟨-, -, hword⟩ := currentStep_some hstep
    simp only [sound, Bool.and_eq_true] at hsound
    obtain ⟨-, hp, -⟩ := committed_of_canStep hsound.1
    exact hs.movePred _ hp (codeDelta_le _ _ hword)
  case writePred b => cases h; exact hs.setPred_byte b
  case zeroSidx => cases h; exact hs.setSidx (by decide) (by decide)
  case clampPred => cases h; exact hs.clampPred
  case clampSidx => cases h; exact hs.clampSidx
  case adjustSidx c =>
    cases h
    simp only [sound, Bool.and_eq_true] at hsound
    exact hs.adjustSidx c (of_decide_eq_true hsound.1)
  case beginEnc n =>
    cases h
    simp only [sound, Bool.and_eq_true, decide_eq_true_eq] at hsound
    exact hs.beginEnc hsound.1.2
  case beginDec m =>
    cases h
    simp only [sound, Bool.and_eq_true, decide_eq_true_eq] at hsound
    exact hs.beginDec hsound.1.2
  case fetchSeed =>
    cases h
    simp only [sound, Bool.and_eq_true] at hsound
    exact hs.advanceIn (of_decide_eq_true hsound.1)
  case emit b => cases h; exact hs.emitByte b
  case emitPred => cases h; exact hs.emitByte _
  case pack c => cases h; exact hs.pack c
  case packFlush => cases h; exact hs.packFlush
  case encNext =>
    simp only [microOp] at h
    split at h
    · next hi => cases h; exact hs.advanceIn hi
    · cases h; exact hs
  case decNext =>
    simp only [microOp] at h
    split at h
    · next hi => cases h; exact hs.advanceIn hi
    · cases h; exact hs
  case setInitd => cases h; exact hs
  case unpackHigh => cases h; exact hs
  case finish r => cases h; exact hs

/-- What is left after a micro-step of an operation that goes on is sound again, with what the micro-step scheduled. -/
theorem microOp_keeps_sound {m : Micro} {L : Nat} {s t : State} (hm : ∀ r, m ≠ .finish r)
    (hsound : sound L (knownOf s) (m :: s.todo) = true) (h : microOp m s = some t) :
    sound L (knownOf t) t.todo = true := by
  cases m
  case finish r => exact absurd rfl (hm r)
  case encSample b toPacker =>
    obtain ⟨step, -, rfl⟩ := Option.map_eq_some_iff.mp h
    have hstep := canStep_of_sound_encSample hsound
    cases toPacker <;> simp only [sound, Bool.and_eq_true] at hsound
    · exact sound_sampleStep _ hstep (by simp [sound, hsound])
    · exact sound_sampleStep _ hstep hsound.2
  case decSample c =>
    obtain ⟨step, -, rfl⟩ := Option.map_eq_some_iff.mp h
    simp only [sound, Bool.and_eq_true] at hsound
    exact sound_sampleStep c hsound.1 hsound.2
  case writePred b => cases h; rw [knownOf_setPred_byte]; exact hsound
  case zeroSidx => cases h; rw [knownOf_zeroSidx]; exact hsound
  case clampPred => cases h; rw [clampPred, knownOf_setPred (clampPred_committed s)]; exact hsound
  case clampSidx => cases h; rw [clampSidx, knownOf_setSidx (clampSidx_committed s)]; exact hsound
  case adjustSidx c =>
    cases h
    simp only [sound, Bool.and_eq_true] at hsound
    exact sound_mono L _ _ _ (le_knownOf_adjustSidx c s) hsound.2
  case beginEnc n =>
    cases h
    simp only [sound, Bool.and_eq_true, decide_eq_true_eq] at hsound
    rw [knownOf_beginEnc hsound.1.1]
    exact hsound.2
  case beginDec m =>
    cases h
    simp only [sound, Bool.and_eq_true, decide_eq_true_eq] at hsound
    rw [knownOf_beginDec hsound.1.1]
    exact hsound.2
  case setInitd =>
    cases h
    simp only [sound, Bool.and_eq_true] at hsound
    exact hsound.2
  case emit b => cases h; exact hsound
  case emitPred =>
    cases h
    simp only [sound, Bool.and_eq_true] at hsound
    exact hsound.2
  case pack c => cases h; rw [pack_todo]; exact sound_mono L _ _ _ (le_knownOf_pack c s) hsound
  case packFlush => cases h; rw [knownOf_packFlush, packFlush_todo]; exact hsound
  case fetchSeed =>
    cases h
    simp only [sound, Bool.and_eq_true] at hsound
    have hknown : Known.le { knownOf s with pred := true, sidx := true, initd := true, count := false }
        { knownOf (advanceIn s) with pred := true, sidx := true, initd := true } :=
      ⟨id, id, rfl, nofun, id, id⟩
    simp only [schedule_todo, List.cons_append, sound, Bool.true_and]
    exact sound_mono L _ _ _ hknown hsound.2
  case unpackHigh =>
    cases h
    simp only [sound, Bool.and_eq_true] at hsound
    obtain ⟨hstep, hrest⟩ := hsound
    obtain ⟨-, hp, -⟩ := committed_of_canStep hstep
    simp only [schedule_todo, List.cons_append, sound, Bool.and_eq_true]
    exact ⟨hstep, decide_eq_true hp, hrest⟩
  case encNext =>
    simp only [sound, Bool.and_eq_true, List.isEmpty_iff] at hsound
    obtain ⟨⟨hstep, hup⟩, hnil⟩ := hsound
    simp only [microOp] at h
    split at h
    · cases h
      simp only [schedule_todo, advanceIn_todo, hnil, List.cons_append, sound, Bool.and_eq_true]
      exact ⟨hstep, ⟨hstep, hup⟩, rfl⟩
    · cases h
      simp only [schedule_todo, hnil, List.cons_append, sound, Bool.and_eq_true]
      exact ⟨canFinish_of_canStep hstep rfl hup, rfl⟩
  case decNext =>
    simp only [sound, Bool.and_eq_true, List.isEmpty_iff] at hsound
    obtain ⟨⟨⟨hstep, hpk⟩, hup⟩, hnil⟩ := hsound
    obtain ⟨-, hp, -⟩ := committed_of_canStep hstep
    simp only [microOp] at h
    split at h
    · cases h
      simp only [schedule_todo, holdHigh_todo, advanceIn_todo, hnil, List.cons_append, sound, Bool.and_eq_true]
      exact ⟨hstep, decide_eq_true hp, hstep, ⟨⟨hstep, hpk⟩, trivial⟩, rfl⟩
    · cases h
      simp only [schedule_todo, hnil, List.cons_append, sound, Bool.and_eq_true]
      exact ⟨canFinish_of_canStep hstep hpk hup, rfl⟩

/-- The completion of an operation, where it may come, leaves an idle core (R14, R23). -/
theorem finishOperation_resting {r : ResultSource} {L : Nat} {s : State} (hs : DataInv s)
    (hsound : sound L (knownOf s) (.finish r :: s.todo) = true) : Resting (finishOperation r s) := by
  simp only [sound, Known.canFinish, knownOf, Bool.and_eq_true, Bool.or_eq_true, Bool.not_eq_true',
    decide_eq_true_eq, List.isEmpty_iff] at hsound
  obtain ⟨⟨⟨hcommitted, hpk⟩, hup⟩, hnil⟩ := hsound
  refine ⟨hs, hnil, rfl, hpk, hup, fun hi => ?_⟩
  exact hcommitted.resolve_left (by simpa using hi)

/-- A micro-step keeps the invariant: an idle core has none left, and a busy one goes on or completes. -/
theorem microStep_keeps_inv {s t : State} (hs : Inv s) (h : microStep s = .next t) : Inv t := by
  obtain ⟨-, rfl⟩ | ⟨m, rest, htodo, hop⟩ := microStep_next h
  · exact hs
  cases hb : s.busy with
  | false =>
    obtain ⟨-, hnone, -⟩ := (inv_iff_of_idle hb).mp hs
    simp [htodo] at hnone
  | true =>
    obtain ⟨hdata, hcmd, hsound⟩ := (inv_iff_of_busy hb).mp hs
    rw [htodo] at hsound
    have htdata : DataInv t := microOp_keeps_dataInv (s := { s with todo := rest }) hdata hsound hop
    by_cases hm : ∃ r, m = .finish r
    · obtain ⟨r, rfl⟩ := hm
      cases hop
      exact (inv_iff_of_idle rfl).mpr (finishOperation_resting hdata hsound)
    · rw [not_exists] at hm
      obtain ⟨htbusy, htcmd, htlenW⟩ := microOp_frame hm hop
      have htsound := microOp_keeps_sound (s := { s with todo := rest }) hm hsound hop
      exact (inv_iff_of_busy (htbusy.trans hb)).mpr ⟨htdata, htcmd ▸ hcmd, htlenW ▸ htsound⟩

end Sys2Proof.Machine
end

/-! PROOFS. A step of the machine, and every run from reset (R23). -/
section
namespace Sys2Proof.Machine

theorem Resting.canFinish {s : State} (h : Resting s) : (knownOf s).canFinish = true := by
  obtain ⟨-, -, -, hpk, hup, hcommitted⟩ := h
  cases hi : s.initd with
  | false => simp [Known.canFinish, knownOf, hi, hpk, hup]
  | true => simp [Known.canFinish, knownOf, hi, hpk, hup, hcommitted hi]

theorem Resting.canStep {s : State} (h : Resting s) (hi : s.initd = true) : (knownOf s).canStep = true := by
  obtain ⟨-, -, -, -, -, hcommitted⟩ := h
  simp [Known.canStep, knownOf, hi, hcommitted hi]

theorem busy_of_launchRefusal {i : Instr} {s : State} (h : launchRefusal i s = none) : s.busy = false := by
  cases i
  case init b => exact idleRefusal_none.mp h
  case enc n => exact (bufferRefusal_none.mp h).1
  case dec m => exact (bufferRefusal_none.mp h).1
  all_goals exact (sampleRefusal_none.mp h).1

/-- Whatever a launch must check is checked before its program begins: the program is sound from there (R102). -/
theorem microProgram_sound {i : Instr} {s : State} (hs : Inv s) (h : launchRefusal i s = none) :
    sound s.lenW (knownOf s) (microProgram i) = true := by
  have hrest : Resting s := (inv_iff_of_idle (busy_of_launchRefusal h)).mp hs
  have hfinish := hrest.canFinish
  have ⟨_, _, _, hpk, hup, _⟩ := hrest
  cases i
  case init b => simp [microProgram, sound, Known.canFinish, knownOf, hpk, hup]
  case enc n =>
    obtain ⟨-, hn, -⟩ := bufferRefusal_none.mp h
    simp only [microProgram]
    split
    · simp [sound, hfinish]
    · next hpos => simp [sound, Known.canStep, knownOf, hup, Nat.pos_of_ne_zero hpos, hn]
  case dec m =>
    obtain ⟨-, hm, -⟩ := bufferRefusal_none.mp h
    simp only [microProgram]
    split
    · simp [sound, hfinish]
    · next hpos => simp [sound, Known.canStep, knownOf, hpk, Nat.pos_of_ne_zero hpos, hm]
  all_goals
    have hstep := hrest.canStep (sampleRefusal_none.mp h).2
    simp [microProgram, decodeProgram, sound, hstep, hfinish]

/-- A command accepted but not waited for: the core is busy with a sound program. -/
theorem accepted_inv {i : Instr} {s : State} (hs : Inv s) (h : launchRefusal i s = none) :
    Inv { accept s with cmd := some i, todo := microProgram i } := by
  obtain ⟨hdata, -⟩ := (inv_iff_of_idle (busy_of_launchRefusal h)).mp hs
  have hsound := microProgram_sound hs h
  exact (inv_iff_of_busy rfl).mpr ⟨hdata, nofun, hsound⟩

/-- The reset event meets the invariant from any state whose spaces are canonical (R103). -/
theorem coreReset_inv {s : State} (hin : s.inMem.wf = true) (hout : s.outMem.wf = true) : Inv (coreReset s) :=
  (inv_iff_of_idle rfl).mpr
    ⟨⟨⟨hin, hout⟩, (by decide : InTransientRange State.reset), Nat.le_refl 0, Nat.two_pow_pos _⟩,
      rfl, rfl, rfl, rfl, nofun⟩

/-- Every run from reset starts in the invariant, whatever the host will do. -/
theorem startOfRun_inv (acts : List HostAct) {m : Memory} (hm : m.wf = true) (lenW : Nat) :
    Inv { State.reset with inbox := acts, inMem := m, lenW := lenW } :=
  coreReset_inv (s := { State.reset with inbox := acts, inMem := m, lenW := lenW }) hm rfl

theorem hostAct_keeps_inv {a : HostAct} {s t : State} (hs : Inv s) (h : hostAct a s = .next t) : Inv t := by
  obtain ⟨l, w, i, -, -, hexec⟩ | ⟨l, w, i, -, -, hlaunch, rfl⟩ | ⟨-, hmicro⟩ | ⟨f, v, -, -, rfl⟩ |
    ⟨i, b, -, -, rfl⟩ | ⟨j, -, rfl⟩ | ⟨-, rfl⟩ := hostAct_next h
  · exact exec_keeps_inv (s := { s with launch := l }) hs hexec
  · exact accepted_inv (s := { s with launch := l }) hs hlaunch
  · exact microStep_keeps_inv hs hmicro
  · exact hs
  · obtain ⟨⟨hin, hout⟩, hrest⟩ := hs
    exact ⟨⟨write_wf _ i b hin, hout⟩, hrest⟩
  · exact hs
  · obtain ⟨⟨hin, hout⟩, -⟩ := hs
    exact coreReset_inv hin hout

/-- Every step keeps the invariant. -/
theorem step_keeps_inv {s t : State} (hs : Inv s) (h : step s = .next t) : Inv t := by
  obtain ⟨-, hstep⟩ | ⟨a, rest, -, hstep⟩ := step_cases s <;> rw [hstep] at h
  · exact microStep_keeps_inv hs h
  · exact hostAct_keeps_inv (s := { s with inbox := rest }) hs h

/-- A run of one more step is a step and the run from there. -/
theorem run_succ_next {M : Host.Core} {k : Nat} {s t : M.State} :
    M.run (k + 1) s = .next t ↔ ∃ u, M.step s = .next u ∧ M.run k u = .next t := by
  rw [Host.Core.run]
  cases M.step s <;> simp

/-- What every step keeps holds at the end of every run. -/
theorem run_induction {M : Host.Core} {P : M.State → Prop}
    (hstep : ∀ {s t : M.State}, P s → M.step s = .next t → P t) {k : Nat} {s t : M.State} (hs : P s)
    (h : M.run k s = .next t) : P t := by
  induction k generalizing s with
  | zero => cases h; exact hs
  | succ k ih =>
    obtain ⟨u, hu, hrun⟩ := run_succ_next.mp h
    exact ih (hstep hs hu) hrun

/-- Settles O53: the invariant holds at reset, with any IN, any `LEN_W` and any list of host acts, and every step keeps
it. -/
theorem committedStateInEveryRun : Obligations.CommittedStateInEveryRun := by
  intro acts m lenW k t hm hrun hb hi
  have ht : Inv t := run_induction (M := Sys2Proof.core) step_keeps_inv (startOfRun_inv acts hm lenW) hrun
  obtain ⟨-, -, -, -, -, hcommitted⟩ := (inv_iff_of_idle hb).mp ht
  exact hcommitted hi

end Sys2Proof.Machine
end

/-! PROOFS. A started operation, micro-step by micro-step: the states it goes through and the accesses it makes (R30,
R71). `Performs` composes micro-steps, and `Performs.run` says it again in the terms of the machine's runs. -/
section
namespace Sys2Proof.Machine

/-- An operation is in progress and the host does nothing. -/
def Running (s : State) : Prop := s.inbox = [] ∧ s.busy = true

/-- Micro-steps lead from `s` to `t` with BUSY = 1 until then, and make the accesses `as` in this order. -/
inductive Performs : State → List Access → State → Prop
  | refl (s : State) : Performs s [] s
  | step {s t u : State} {as : List Access} (hs : Running s) (hstep : microStep s = .next t) (h : Performs t as u) :
      Performs s ((nextAccess s).toList ++ as) u

theorem Performs.trans {s t u : State} {as bs : List Access} (h : Performs s as t) (h' : Performs t bs u) :
    Performs s (as ++ bs) u := by
  induction h with
  | refl s => exact h'
  | step hs hstep _ ih => rw [List.append_assoc]; exact .step hs hstep (ih h')

theorem step_of_inbox_nil {s : State} (h : s.inbox = []) : step s = microStep s := by simp [step, h]

theorem busyUntil_zero (s : State) : busyUntil s 0 s := ⟨rfl, nofun⟩

/-- A busy step lengthens a busy run. -/
theorem busyUntil_succ {s t u : State} {k : Nat} (hb : s.busy = true) (hstep : step s = .next t)
    (h : busyUntil t k u) : busyUntil s (k + 1) u := by
  obtain ⟨hrun, hbusy⟩ := h
  refine ⟨run_succ_next.mpr ⟨t, hstep, hrun⟩, fun j hj => ?_⟩
  cases j with
  | zero => exact ⟨s, rfl, hb⟩
  | succ j =>
    obtain ⟨v, hv, hvb⟩ := hbusy j (by omega)
    exact ⟨v, run_succ_next.mpr ⟨t, hstep, hv⟩, hvb⟩

theorem accessesOf_succ {s t : State} (k : Nat) (h : microStep s = .next t) :
    accessesOf (k + 1) s = (nextAccess s).toList ++ accessesOf k t := by simp [accessesOf, h]

/-- What the micro-steps perform, a run of the machine performs. -/
theorem Performs.run {s t : State} {as : List Access} (h : Performs s as t) :
    ∃ k, busyUntil s k t ∧ accessesOf k s = as := by
  induction h with
  | refl s => exact ⟨0, busyUntil_zero s, rfl⟩
  | step hs hstep _ ih =>
    obtain ⟨hinbox, hb⟩ := hs
    obtain ⟨k, hbusy, haccesses⟩ := ih
    exact ⟨k + 1, busyUntil_succ hb ((step_of_inbox_nil hinbox).trans hstep) hbusy,
      haccesses ▸ accessesOf_succ k hstep⟩

/-- A command that is begun was not refused, and its whole program is to do. -/
theorem beginCommand_next {i : Instr} {s t : State} (h : beginCommand i s = .next t) :
    launchRefusal i s = none ∧ t = { accept s with cmd := some i, todo := microProgram i } := by
  unfold beginCommand at h
  split at h
  · cases h
  · next hr => cases h; exact ⟨hr, rfl⟩

/-- A started command makes the accesses that its program makes from every state in progress, and completes. -/
theorem accesses_of_started {i : Instr} {s s0 : State} {as : List Access} (hinbox : s.inbox = [])
    (h : beginCommand i s = .next s0)
    (hprogram : ∀ {u : State}, Running u → ∃ t, t.busy = false ∧ Performs { u with todo := microProgram i } as t) :
    ∃ (k : Nat) (t : State), busyUntil s0 k t ∧ t.busy = false ∧ accessesOf k s0 = as := by
  obtain ⟨-, rfl⟩ := beginCommand_next h
  obtain ⟨t, hdone, hperforms⟩ := hprogram (u := { accept s with cmd := some i }) ⟨hinbox, rfl⟩
  obtain ⟨k, hbusy, haccesses⟩ := hperforms.run
  exact ⟨k, t, hbusy, hdone, haccesses⟩

/-! ### One micro-step, and those of a sample step -/

theorem microStep_cons {m : Micro} {ms : List Micro} {s t : State} (h : microOp m { s with todo := ms } = some t) :
    microStep { s with todo := m :: ms } = .next t := by simp [microStep, h]

/-- The access of a micro-step depends on the registers, not on the micro-steps left. -/
theorem nextAccess_cons (m : Micro) (ms : List Micro) (s : State) :
    nextAccess { s with todo := m :: ms } = microAccess m s := by cases m <;> rfl

theorem performs_micro {m : Micro} {ms : List Micro} {s t : State} (hs : Running s)
    (h : microOp m { s with todo := ms } = some t) :
    Performs { s with todo := m :: ms } (microAccess m s).toList t := by
  have hstep := Performs.step (s := { s with todo := m :: ms }) hs (microStep_cons h) (.refl t)
  rwa [List.append_nil, nextAccess_cons] at hstep

/-- Micro-steps 2 to 4 of a sample step are the State Clamp and access no buffer (R63, R71). -/
theorem performs_clampMicros (c : Code) (ms : List Micro) {s : State} (hs : Running s) :
    Performs { s with todo := clampMicros c ++ ms } [] { stateClamp c s with todo := ms } :=
  .step hs rfl (.step hs rfl (.step hs rfl (.refl _)))

theorem Running.encStep {b : Byte} {c : Code} {s t : State} (hs : Running s) (h : encStep b s = some (c, t)) :
    Running t := by
  obtain ⟨d, -, rfl⟩ := encStep_eq_stateClamp h
  exact hs

theorem Running.decStep {c : Code} {y : Byte} {s t : State} (hs : Running s) (h : decStep c s = some (y, t)) :
    Running t := by
  obtain ⟨d, -, rfl⟩ := decStep_eq_stateClamp h
  exact hs

/-- The encoder's sample step in ENC accesses no buffer and hands its code to the packer (R68, R73). -/
theorem performs_encSample {b : Byte} {c : Code} {s t : State} (ms : List Micro) (hs : Running s)
    (h : encStep b s = some (c, t)) :
    Performs { s with todo := .encSample b true :: ms } [] { t with todo := .pack c :: ms } := by
  obtain ⟨step, hstep, rfl, rfl, -⟩ := encStep_some h
  have hop : microOp (.encSample b true) { s with todo := ms } = _ := congrArg (Option.map _) hstep
  exact (performs_micro hs hop).trans (performs_clampMicros _ _ (s := movePred _ _ s) hs)

/-- The decoder's sample step accesses no buffer (R69). -/
theorem performs_decSample {c : Code} {y : Byte} {s t : State} (ms : List Micro) (hs : Running s)
    (h : decStep c s = some (y, t)) :
    Performs { s with todo := .decSample c :: ms } [] { t with todo := ms } := by
  obtain ⟨step, hstep, -, rfl, -⟩ := decStep_some h
  have hop : microOp (.decSample c) { s with todo := ms } = _ := congrArg (Option.map _) hstep
  exact (performs_micro hs hop).trans (performs_clampMicros c ms (s := movePred _ _ s) hs)

theorem seedFromBuffer_committed (s : State) : Committed (seedFromBuffer s) :=
  seed_committed (readIn 0 s) (advanceIn s)

/-- The opening of ENC and DEC: the first byte is read, loaded as the seed and written verbatim (R73, R75). -/
theorem performs_fetchSeed (ms : List Micro) {s : State} (hs : Running s) :
    Performs { s with todo := .fetchSeed :: ms } [.readIn 0, .writeOut s.idxO]
      { seedFromBuffer s with todo := ms } :=
  .step hs rfl (.step hs rfl (.step hs rfl (.step hs rfl (.step hs rfl (.refl _)))))

end Sys2Proof.Machine
end

/-! PROOFS. ENC in progress (R33): the micro-steps perform the passes of its loop, and the counters fix the index of
every access. -/
section
namespace Sys2Proof.Machine

/-! ### What Pack and PackFlush do to the counters and to OUT -/

@[simp] theorem pack_sidx (c : Code) (s : State) : (pack c s).sidx = s.sidx := by unfold pack; split <;> rfl
@[simp] theorem pack_cnt (c : Code) (s : State) : (pack c s).cnt = s.cnt := by unfold pack; split <;> rfl
@[simp] theorem pack_idxI (c : Code) (s : State) : (pack c s).idxI = s.idxI := by unfold pack; split <;> rfl
@[simp] theorem pack_inbox (c : Code) (s : State) : (pack c s).inbox = s.inbox := by unfold pack; split <;> rfl
@[simp] theorem packFlush_inbox (s : State) : (packFlush s).inbox = s.inbox := by unfold packFlush; split <;> rfl

@[simp] theorem pack_pkPh (c : Code) (s : State) : (pack c s).pkPh = !s.pkPh := by
  cases h : s.pkPh <;> simp [pack, h]

@[simp] theorem pack_idxO (c : Code) (s : State) : (pack c s).idxO = s.idxO + s.pkPh.toNat := by
  cases h : s.pkPh <;> simp [pack, h]

/-- The access of `Pack` and of `PackFlush` (R74): OUT at IDX_O, where the packer holds a code. -/
def packAccesses (s : State) : List Access := if s.pkPh then [.writeOut s.idxO] else []

theorem microAccess_pack (c : Code) (s : State) : (microAccess (.pack c) s).toList = packAccesses s := by
  cases h : s.pkPh <;> simp [microAccess, packAccesses, h]

theorem microAccess_packFlush (s : State) : (microAccess .packFlush s).toList = packAccesses s :=
  microAccess_pack 0 s

theorem microOp_pack (c : Code) (ms : List Micro) (s : State) :
    microOp (.pack c) { s with todo := ms } = some { pack c s with todo := ms } := by
  simp only [microOp, pack]
  split <;> rfl

theorem microOp_packFlush (ms : List Micro) (s : State) :
    microOp .packFlush { s with todo := ms } = some { packFlush s with todo := ms } := by
  simp only [microOp, packFlush]
  split <;> rfl

/-! ### The loop -/

/-- ENC of `n` bytes at the head of its loop, `i` bytes read: the codes from 1 to `i - 1` are packed in pairs, and the
packer holds the last one when `i` is even (R73, R74). -/
structure EncAt (n i : Nat) (s : State) : Prop where
  running : Running s
  sidx : SidxCommitted s
  cnt : s.cnt = n
  idxI : s.idxI = i
  idxO : s.idxO = (i + 1) / 2
  pkPh : s.pkPh = decide (i % 2 = 0)

/-- What ENC writes once byte `i` is read, and once more at the end for an even count `i` (R33). -/
def encWrites (i : Nat) : List Access := if i % 2 = 0 then [.writeOut (i / 2)] else []

theorem EncAt.packAccesses_eq {n i : Nat} {s : State} (h : EncAt n i s) : packAccesses s = encWrites i := by
  by_cases hi : i % 2 = 0
  · have hout : (i + 1) / 2 = i / 2 := by omega
    simp [packAccesses, encWrites, h.pkPh, h.idxO, hi, hout]
  · simp [packAccesses, encWrites, h.pkPh, hi]

/-- The meaning's next pass exists and leaves ENC at the head of its loop, one byte further. -/
theorem EncAt.encIteration {n i : Nat} {s : State} (h : EncAt n i s) :
    ∃ t, encIteration s = some t ∧ EncAt n (i + 1) t := by
  obtain ⟨hrun, hsidx, hcnt, hidxI, hidxO, hpk⟩ := h
  obtain ⟨⟨c, u⟩, hu⟩ := encStep_isSome (readIn s.idxI s) (s := advanceIn s) hsidx
  obtain ⟨step, -, -, rfl, -, hsidx'⟩ := encStep_some hu
  refine ⟨_, congrArg (Option.map _) hu, ?_⟩
  have hidxO' : s.idxO + s.pkPh.toNat = (i + 1 + 1) / 2 := by
    rw [hidxO, hpk]
    by_cases hi : i % 2 = 0 <;> simp [hi] <;> omega
  have hpk' : (!s.pkPh) = decide ((i + 1) % 2 = 0) := by
    rw [hpk]
    by_cases hi : i % 2 = 0 <;> simp [hi] <;> omega
  constructor
  · simpa [Running, stateClamp_eq] using hrun
  · rwa [SidxCommitted, pack_sidx]
  · simpa [stateClamp_eq] using hcnt
  · simpa [stateClamp_eq] using hidxI
  · simpa [stateClamp_eq] using hidxO'
  · rw [pack_pkPh]; exact hpk'

/-- The micro-steps of one pass (R73 steps 2 and 3): one read, then what `Pack` writes. -/
theorem performs_encIteration {s t : State} (hs : Running s) (hi : s.idxI < s.cnt) (h : encIteration s = some t) :
    Performs { s with todo := [.encNext] } (.readIn s.idxI :: packAccesses s) { t with todo := [.encNext] } := by
  obtain ⟨⟨c, u⟩, hu, rfl⟩ := Option.map_eq_some_iff.mp h
  have hnext : microOp .encNext { s with todo := [] } =
      some { advanceIn s with todo := [.encSample (readIn s.idxI s) true, .encNext] } := if_pos hi
  have haccess : microAccess .encNext s = some (.readIn s.idxI) := if_pos hi
  have hfetch := performs_micro hs hnext
  have hsample := performs_encSample (s := advanceIn s) [.encNext] hs hu
  have hpack := performs_micro (hs.encStep (s := advanceIn s) hu) (microOp_pack c [.encNext] u)
  rw [haccess] at hfetch
  have hheld : packAccesses u = packAccesses s := by
    obtain ⟨d, -, rfl⟩ := encStep_eq_stateClamp hu
    rfl
  rw [microAccess_pack, hheld] at hpack
  exact hfetch.trans (hsample.trans hpack)

/-- The indices of a pass's accesses, by the number of bytes read (R33). -/
theorem EncAt.passAccesses_eq {n i : Nat} {s : State} (h : EncAt n i s) :
    .readIn s.idxI :: packAccesses s = Access.readIn i :: encWrites i := by rw [h.idxI, h.packAccesses_eq]

/-- `k` passes of the loop, over the bytes `i` to `i + k - 1` (R33). -/
theorem EncAt.performs_encLoop {n i k : Nat} {s : State} (h : EncAt n i s) (hn : n = i + k) :
    ∃ t, encLoop k s = some t ∧ EncAt n n t ∧
      Performs { s with todo := [.encNext] } ((List.range' i k).flatMap fun j => .readIn j :: encWrites j)
        { t with todo := [.encNext] } := by
  induction k generalizing i s with
  | zero => exact ⟨s, rfl, hn ▸ h, .refl _⟩
  | succ k ih =>
    obtain ⟨u, hu, hnext⟩ := h.encIteration
    obtain ⟨t, ht, hend, hrest⟩ := ih hnext (by omega)
    have hi : s.idxI < s.cnt := by rw [h.idxI, h.cnt]; omega
    have hpass := performs_encIteration h.running hi hu
    rw [h.passAccesses_eq] at hpass
    refine ⟨t, ?_, hend, ?_⟩
    · rw [encLoop, hu, Option.bind_some, ht]
    · rw [List.range'_succ, List.flatMap_cons]
      exact hpass.trans hrest

/-- The end of the loop (R73, R74): the trailing code is written, if there is one, and the result returns. -/
theorem performs_encEnd {s : State} (hs : Running s) (hi : ¬ s.idxI < s.cnt) :
    Performs { s with todo := [.encNext] } (packAccesses s)
      (finishOperation .idxO { packFlush s with todo := [] }) := by
  have hnext : microOp .encNext { s with todo := [] } = some { s with todo := [.packFlush, .finish .idxO] } := if_neg hi
  have haccess : microAccess .encNext s = none := if_neg hi
  have hlast := performs_micro hs hnext
  have hflush := performs_micro hs (microOp_packFlush [.finish .idxO] s)
  have hfinish := performs_micro (m := .finish .idxO) (ms := []) (s := packFlush s) (by simpa [Running] using hs) rfl
  rw [haccess] at hlast
  rw [microAccess_packFlush] at hflush
  exact List.append_nil (packAccesses s) ▸ hlast.trans (hflush.trans hfinish)

/-! ### The whole operation -/

/-- The seed is committed and its byte written, so ENC comes to its loop with byte 0 read (R73 step 1). -/
theorem encAt_seedFromBuffer {n : Nat} {s : State} (hs : Running s) : EncAt n 1 (seedFromBuffer (beginEnc n s)) where
  running := hs
  sidx := (seedFromBuffer_committed _).2
  cnt := rfl
  idxI := rfl
  idxO := rfl
  pkPh := rfl

/-- The accesses of ENC by parts: the opening, the passes and the trailing code (R33). -/
theorem encAccesses_of_pos {n : Nat} (hn : n ≠ 0) :
    encAccesses n = [.readIn 0, .writeOut 0] ++
      (((List.range' 1 (n - 1)).flatMap fun i => .readIn i :: encWrites i) ++ encWrites n) := by
  rw [encAccesses, if_neg hn, List.append_assoc]
  rfl

/-- ENC as a whole, at its first micro-step. -/
theorem performs_enc (n : Nat) {s : State} (hs : Running s) :
    ∃ t, t.busy = false ∧ Performs { s with todo := microProgram (.enc n) } (encAccesses n) t := by
  by_cases hn : n = 0
  · rw [microProgram, if_pos hn, encAccesses, if_pos hn]
    exact ⟨finishOperation (.value 0) { s with todo := [] }, rfl, performs_micro hs rfl⟩
  · have hbegin : Performs { s with todo := [.beginEnc n, .fetchSeed, .encNext] } []
        { beginEnc n s with todo := [.fetchSeed, .encNext] } := performs_micro hs rfl
    have hseed := performs_fetchSeed [.encNext] (s := beginEnc n s) hs
    have hstart : EncAt n 1 (seedFromBuffer (beginEnc n s)) := encAt_seedFromBuffer hs
    obtain ⟨t, -, ht, hloop⟩ := hstart.performs_encLoop (k := n - 1) (by omega)
    have hend := performs_encEnd ht.running (by rw [ht.idxI, ht.cnt]; omega)
    rw [ht.packAccesses_eq] at hend
    rw [microProgram, if_neg hn, encAccesses_of_pos hn]
    exact ⟨_, rfl, hbegin.trans (hseed.trans (hloop.trans hend))⟩

/-- Settles O39: the counters at the head of ENC's loop fix the index of every access of a pass, and the passes are
counted by induction. -/
theorem encAccessOrder : Obligations.EncAccessOrder :=
  fun n _ _ hinbox _ h => accesses_of_started hinbox h (performs_enc n)

end Sys2Proof.Machine
end

/-! PROOFS. DEC in progress (R34), as ENC above: each pass reads one byte and writes two samples. -/
section
namespace Sys2Proof.Machine

/-- DEC of `m` bytes at the head of its loop, `i` bytes read: the first gave one sample, each other one two (R75). -/
structure DecAt (m i : Nat) (s : State) : Prop where
  running : Running s
  sidx : SidxCommitted s
  cnt : s.cnt = m
  idxI : s.idxI = i
  idxO : s.idxO + 1 = 2 * i

/-- All a pass of DEC's loop can do (R75, R76): the low code, then the held high code, each decoded and written. -/
theorem decIteration_some {s t : State} (h : decIteration s = some t) :
    ∃ y₁ t₁ y₂ t₂,
      decStep (lowNibble (readIn s.idxI s)) (holdHigh (readIn s.idxI s) (advanceIn s)) = some (y₁, t₁) ∧
      decStep t₁.upHi (releaseHigh (emitByte y₁ t₁)) = some (y₂, t₂) ∧ t = emitByte y₂ t₂ := by
  dsimp only [decIteration] at h
  split at h
  · cases h
  · next y₁ t₁ h₁ =>
    obtain ⟨⟨y₂, t₂⟩, h₂, rfl⟩ := Option.map_eq_some_iff.mp h
    exact ⟨y₁, t₁, y₂, t₂, h₁, h₂, rfl⟩

theorem decIteration_isSome {s : State} (h : SidxCommitted s) : ∃ t, decIteration s = some t := by
  obtain ⟨⟨y₁, t₁⟩, h₁⟩ := decStep_isSome (lowNibble (readIn s.idxI s))
    (s := holdHigh (readIn s.idxI s) (advanceIn s)) h
  obtain ⟨-, -, -, -, -, hsidx⟩ := decStep_some h₁
  obtain ⟨⟨y₂, t₂⟩, h₂⟩ := decStep_isSome t₁.upHi (s := releaseHigh (emitByte y₁ t₁)) hsidx
  exact ⟨emitByte y₂ t₂, by simp [decIteration, h₁, h₂]⟩

/-- The meaning's next pass exists and leaves DEC at the head of its loop, one byte further. -/
theorem DecAt.decIteration {m i : Nat} {s : State} (h : DecAt m i s) :
    ∃ t, decIteration s = some t ∧ DecAt m (i + 1) t := by
  obtain ⟨hrun, hsidx, hcnt, hidxI, hidxO⟩ := h
  obtain ⟨t, ht⟩ := decIteration_isSome hsidx
  refine ⟨t, ht, ?_⟩
  obtain ⟨y₁, t₁, y₂, t₂, h₁, h₂, rfl⟩ := decIteration_some ht
  obtain ⟨-, -, -, -, -, hsidx'⟩ := decStep_some h₂
  obtain ⟨d₁, -, rfl⟩ := decStep_eq_stateClamp h₁
  obtain ⟨d₂, -, rfl⟩ := decStep_eq_stateClamp h₂
  refine ⟨hrun, hsidx', hcnt, congrArg (· + 1) hidxI, ?_⟩
  show s.idxO + 1 + 1 + 1 = 2 * (i + 1)
  omega

theorem decStep_idxO {c : Code} {y : Byte} {s t : State} (h : decStep c s = some (y, t)) : t.idxO = s.idxO := by
  obtain ⟨d, -, rfl⟩ := decStep_eq_stateClamp h
  rfl

/-- One sample of DEC (R75): a code is decoded and the predictor written. -/
theorem performs_decSample_emit {c : Code} {y : Byte} {s t : State} (ms : List Micro) (hs : Running s)
    (h : decStep c s = some (y, t)) :
    Performs { s with todo := .decSample c :: .emitPred :: ms } [.writeOut s.idxO]
      { emitByte y t with todo := ms } := by
  obtain ⟨-, -, hy, -, -⟩ := decStep_some h
  have hemit : Performs { t with todo := .emitPred :: ms } [.writeOut t.idxO]
      { emitByte (predByte t) t with todo := ms } := performs_micro (hs.decStep h) rfl
  have haccess : [Access.writeOut s.idxO] = [.writeOut t.idxO] := by rw [decStep_idxO h]
  rw [haccess, hy]
  exact (performs_decSample (.emitPred :: ms) hs h).trans hemit

/-- The micro-steps of one pass (R75, R76): one read and two writes. -/
theorem performs_decIteration {s t : State} (hs : Running s) (hi : s.idxI < s.cnt) (h : decIteration s = some t) :
    Performs { s with todo := [.decNext] } [.readIn s.idxI, .writeOut s.idxO, .writeOut (s.idxO + 1)]
      { t with todo := [.decNext] } := by
  obtain ⟨y₁, t₁, y₂, t₂, h₁, h₂, rfl⟩ := decIteration_some h
  have hnext : microOp .decNext { s with todo := [] } =
      some { holdHigh (readIn s.idxI s) (advanceIn s) with
        todo := [.decSample (lowNibble (readIn s.idxI s)), .emitPred, .unpackHigh, .decNext] } := if_pos hi
  have haccess : microAccess .decNext s = some (.readIn s.idxI) := if_pos hi
  have hread := performs_micro hs hnext
  rw [haccess] at hread
  have hlow := performs_decSample_emit [.unpackHigh, .decNext]
    (s := holdHigh (readIn s.idxI s) (advanceIn s)) hs h₁
  have hrun : Running t₁ := Running.decStep (s := holdHigh (readIn s.idxI s) (advanceIn s)) hs h₁
  have hunpack : Performs { emitByte y₁ t₁ with todo := [.unpackHigh, .decNext] } []
      { releaseHigh (emitByte y₁ t₁) with todo := [.decSample t₁.upHi, .emitPred, .decNext] } :=
    performs_micro hrun rfl
  have hhigh := performs_decSample_emit [.decNext] (s := releaseHigh (emitByte y₁ t₁)) hrun h₂
  have haccesses : [.readIn s.idxI, .writeOut s.idxO, .writeOut (s.idxO + 1)] =
      [Access.readIn s.idxI, .writeOut s.idxO, .writeOut (t₁.idxO + 1)] := by
    rw [decStep_idxO h₁, holdHigh_idxO, advanceIn_idxO]
  rw [haccesses]
  exact hread.trans (hlow.trans (hunpack.trans hhigh))

/-- The indices of a pass's accesses, by the number of bytes read (R34). -/
theorem DecAt.passAccesses_eq {m i : Nat} {s : State} (h : DecAt m i s) :
    [.readIn s.idxI, .writeOut s.idxO, .writeOut (s.idxO + 1)] =
      [Access.readIn i, .writeOut (2 * i - 1), .writeOut (2 * i)] := by
  have hfirst : s.idxO = 2 * i - 1 := Nat.eq_sub_of_add_eq h.idxO
  rw [h.idxO, hfirst, h.idxI]

/-- `k` passes of the loop, over the bytes `i` to `i + k - 1` (R34). -/
theorem DecAt.performs_decLoop {m i k : Nat} {s : State} (h : DecAt m i s) (hm : m = i + k) :
    ∃ t, decLoop k s = some t ∧ DecAt m m t ∧
      Performs { s with todo := [.decNext] }
        ((List.range' i k).flatMap fun j => [.readIn j, .writeOut (2 * j - 1), .writeOut (2 * j)])
        { t with todo := [.decNext] } := by
  induction k generalizing i s with
  | zero => exact ⟨s, rfl, hm ▸ h, .refl _⟩
  | succ k ih =>
    obtain ⟨u, hu, hnext⟩ := h.decIteration
    obtain ⟨t, ht, hend, hrest⟩ := ih hnext (by omega)
    have hi : s.idxI < s.cnt := by rw [h.idxI, h.cnt]; omega
    have hpass := performs_decIteration h.running hi hu
    rw [h.passAccesses_eq] at hpass
    refine ⟨t, ?_, hend, ?_⟩
    · rw [decLoop, hu, Option.bind_some, ht]
    · rw [List.range'_succ, List.flatMap_cons]
      exact hpass.trans hrest

/-- The seed is committed and its byte written, so DEC comes to its loop with byte 0 read (R75). -/
theorem decAt_seedFromBuffer {m : Nat} {s : State} (hs : Running s) : DecAt m 1 (seedFromBuffer (beginDec m s)) where
  running := hs
  sidx := (seedFromBuffer_committed _).2
  cnt := rfl
  idxI := rfl
  idxO := rfl

/-- The end of the loop (R75): nothing is left to write, and the result returns. -/
theorem performs_decEnd {s : State} (hs : Running s) (hi : ¬ s.idxI < s.cnt) :
    Performs { s with todo := [.decNext] } [] (finishOperation .idxO { s with todo := [] }) := by
  have hnext : microOp .decNext { s with todo := [] } = some { s with todo := [.finish .idxO] } := if_neg hi
  have haccess : microAccess .decNext s = none := if_neg hi
  have hlast := performs_micro hs hnext
  rw [haccess] at hlast
  exact hlast.trans (performs_micro hs rfl)

/-- DEC as a whole, at its first micro-step. -/
theorem performs_dec (m : Nat) {s : State} (hs : Running s) :
    ∃ t, t.busy = false ∧ Performs { s with todo := microProgram (.dec m) } (decAccesses m) t := by
  by_cases hm : m = 0
  · rw [microProgram, if_pos hm, decAccesses, if_pos hm]
    exact ⟨finishOperation (.value 0) { s with todo := [] }, rfl, performs_micro hs rfl⟩
  · have hbegin : Performs { s with todo := [.beginDec m, .fetchSeed, .decNext] } []
        { beginDec m s with todo := [.fetchSeed, .decNext] } := performs_micro hs rfl
    have hseed := performs_fetchSeed [.decNext] (s := beginDec m s) hs
    have hstart : DecAt m 1 (seedFromBuffer (beginDec m s)) := decAt_seedFromBuffer hs
    obtain ⟨t, -, ht, hloop⟩ := hstart.performs_decLoop (k := m - 1) (by omega)
    have hend := performs_decEnd ht.running (by rw [ht.idxI, ht.cnt]; omega)
    rw [microProgram, if_neg hm, decAccesses, if_neg hm]
    have hrest := hloop.trans hend
    rw [List.append_nil] at hrest
    exact ⟨_, rfl, hbegin.trans (hseed.trans hrest)⟩

/-- Settles O40: as O39, with two OUT bytes to each byte of IN after the first. -/
theorem decAccessOrder : Obligations.DecAccessOrder :=
  fun m _ _ hinbox _ h => accesses_of_started hinbox h (performs_dec m)

end Sys2Proof.Machine
end

/-! PROOFS. The opcode map (R54): the unassigned `op` values, and the code of each CODE4 row. -/
section
namespace Sys2Proof.Machine

/-- R55 (c): no assigned `op` is 5 or more, so the decoder comes to its last branch. -/
theorem decodeCmd_reservedOp {op : OpField} (h : 5 ≤ op.toNat) (arg : Nat) :
    decodeCmd op arg = .error (.reservedOp op) := by
  have hne (o : OpField) (ho : o.toNat < 5) : op ≠ o := by rintro rfl; omega
  rw [decodeCmd, if_neg (hne 0#3 (by decide)), if_neg (hne 1#3 (by decide)), if_neg (hne 2#3 (by decide)),
    if_neg (hne 3#3 (by decide)), if_neg (hne 4#3 (by decide))]

theorem decode_reservedOp (lenW : Nat) {op : OpField} (h : 5 ≤ op.toNat) (arg : Nat) :
    decode lenW (.cmd op arg) = .error (.reservedOp op) := by
  rw [decode, decodeCmd_reservedOp h]

/-- R46: the code whose bits 3 to 0 are a row's `s`, `m2`, `m1` and `m0`. -/
def CodeRow.code (r : CodeRow) : Code :=
  .cons r.neg (.cons r.m2 (.cons r.m1 (.cons r.m0 .nil)))

theorem CodeRow.code_bits (r : CodeRow) :
    r.code.getLsbD 3 = r.neg ∧ r.code.getLsbD 2 = r.m2 ∧ r.code.getLsbD 1 = r.m1 ∧ r.code.getLsbD 0 = r.m0 := by
  simp [CodeRow.code, BitVec.getElem_cons]

theorem encode_codeRow : ∀ r ∈ codeRowTable, encode r.instr = .code4 r.code := by decide

theorem idxRom_codeRow : ∀ r ∈ codeRowTable, idxRom r.code = r.indexDelta := by decide

theorem codeRow_has_code {r : CodeRow} (hr : r ∈ codeRowTable) :
    ∃ c : Code, encode r.instr = .code4 c ∧ c.getLsbD 3 = r.neg ∧ c.getLsbD 2 = r.m2 ∧ c.getLsbD 1 = r.m1 ∧
      c.getLsbD 0 = r.m0 ∧ idxRom c = r.indexDelta := by
  obtain ⟨hs, h2, h1, h0⟩ := r.code_bits
  exact ⟨r.code, encode_codeRow r hr, hs, h2, h1, h0, idxRom_codeRow r hr⟩

/-- Settles O1: the five encodings are the encoder's own equations; a reserved `op` and a CODE4 row have the lemmas
above. -/
theorem opcodeMapFollowsListingOrder : Obligations.OpcodeMapFollowsListingOrder :=
  ⟨fun _ => rfl, fun _ => rfl, fun _ => rfl, fun _ => rfl, fun _ => rfl,
    fun lenW arg _ hop => decode_reservedOp lenW hop arg, fun _ hr => codeRow_has_code hr⟩

end Sys2Proof.Machine
end

/-! PROOFS. STEP_ROM against the printed table (R58, R59, R62): each check of the contents is one of the list as printed,
and a lookup is a lookup in that list. -/
section
namespace Sys2Proof.Machine

theorem stepTable_toNat : stepTable.map BitVec.toNat = stepRomContents := by decide

theorem stepRomContents_pairwise : stepRomContents.Pairwise (· ≤ ·) := by decide

theorem stepRomContents_length : stepRomContents.length = 49 := by decide

theorem stepRomContents_sum : stepRomContents.sum = 3013 := by decide

theorem stepRom_natCast (i : Nat) : stepRom i = stepRomContents[i]? := by
  rw [stepRom, if_pos (Int.natCast_nonneg i), Int.toNat_natCast, ← List.getElem?_map, stepTable_toNat]

theorem stepRom_isSome_iff {i : Int} : (∃ w, stepRom i = some w) ↔ 0 ≤ i ∧ i ≤ 48 where
  mp := fun ⟨_, h⟩ =>
    have ⟨h0, h48, _⟩ := stepRom_eq_some h
    ⟨h0, h48⟩
  mpr := fun ⟨h0, h48⟩ => stepRom_isSome h0 h48

theorem stepRom_mono {i j : Int} {v w : Nat} (hij : i ≤ j) (hv : stepRom i = some v) (hw : stepRom j = some w) :
    v ≤ w := by
  obtain ⟨hi, -⟩ := stepRom_eq_some hv
  lift i to Nat using hi
  lift j to Nat using by omega
  rw [stepRom_natCast] at hv hw
  obtain ⟨hi, rfl⟩ := List.getElem?_eq_some_iff.mp hv
  obtain ⟨hj, rfl⟩ := List.getElem?_eq_some_iff.mp hw
  exact stepRomContents_pairwise.sortedLE.getElem_le_getElem_of_le (Int.ofNat_le.mp hij)

/-- Reading the ROM from index 0 to 48 gives back the printed list. -/
theorem stepRom_map_range : (List.range 49).map (fun i : Nat => (stepRom i).getD 0) = stepRomContents := by
  refine List.ext_getElem (by simp [stepRomContents_length]) fun i _ hi => ?_
  rw [List.getElem_map, List.getElem_range, stepRom_natCast, List.getElem?_eq_getElem hi, Option.getD_some]

/-- R59's sum. The index is an integer here, so Lean casts `List.range 49` as a whole; the `simp only` moves the cast
into the function mapped. -/
theorem stepRom_sum : ((List.range 49).map (fun i => (stepRom i).getD 0)).sum = 3013 := by
  simp only [List.bind_eq_flatMap, List.pure_def, ← List.map_eq_flatMap, List.map_map]
  exact (congrArg List.sum stepRom_map_range).trans stepRomContents_sum

/-- Settles O10: the words are the printed ones, so order and sum are facts about the printed list. -/
theorem stepRomChecks : Obligations.StepRomChecks := by
  refine ⟨stepRom_natCast, fun _ => stepRom_isSome_iff, fun i w h => ?_, fun _ _ _ _ => stepRom_mono, stepRom_sum⟩
  obtain ⟨-, -, hword⟩ := stepRom_eq_some h
  exact hword

end Sys2Proof.Machine
end

/-! PROOFS. IDX_ROM (R61), read off its sixteen words. -/
section
namespace Sys2Proof.Machine

theorem idxRom_xor_sign : ∀ c : Code, idxRom (c ^^^ 8) = idxRom c := by decide

theorem idxRom_of_m2_clear : ∀ c : Code, c.getLsbD 2 = false → idxRom c = -1 := by decide

theorem idxRom_of_m2_set :
    ∀ c : Code, c.getLsbD 2 = true → idxRom c = 2 * (((c.toNat % 8 : Nat) : Int) - 3) := by decide

/-- Settles O11: the symmetry and the two halves of the closed form. -/
theorem idxRomClosedForm : Obligations.IdxRomClosedForm :=
  fun c => ⟨(idxRom_xor_sign c).symm, idxRom_of_m2_clear c, idxRom_of_m2_set c⟩

end Sys2Proof.Machine
end

/-! PROOFS. The saturation functions (R64): what they answer on each side of the range, and their order. -/
section
namespace Sys2Proof.Machine

theorem clampP_of_neg {x : Int} (h : x < 0) : clampP x = 0 := by
  unfold clampP; omega

theorem clampP_of_gt {x : Int} (h : 255 < x) : clampP x = 255 := by
  unfold clampP; omega

theorem clampI_of_neg {x : Int} (h : x < 0) : clampI x = 0 := by
  unfold clampI; omega

theorem clampI_of_gt {x : Int} (h : 48 < x) : clampI x = 48 := by
  unfold clampI; omega

@[simp] theorem clampP_clampP (x : Int) : clampP (clampP x) = clampP x :=
  have ⟨h0, h255⟩ := clampP_range x
  clampP_of_range h0 h255

@[simp] theorem clampI_clampI (x : Int) : clampI (clampI x) = clampI x :=
  have ⟨h0, h48⟩ := clampI_range x
  clampI_of_range h0 h48

theorem clampP_mono {x y : Int} (h : x ≤ y) : clampP x ≤ clampP y :=
  max_le_max_left 0 (min_le_min_left 255 h)

theorem clampI_mono {x y : Int} (h : x ≤ y) : clampI x ≤ clampI y :=
  max_le_max_left 0 (min_le_min_left 48 h)

/-- Settles O12: a clamped value lies in the range, where the clamp is the identity, hence the idempotence. -/
theorem clampsSaturate : Obligations.ClampsSaturate :=
  ⟨fun _ => ⟨clampP_of_neg, clampP_of_gt, clampP_of_range⟩,
    fun _ => ⟨clampI_of_neg, clampI_of_gt, clampI_of_range⟩,
    fun x => ⟨clampP_clampP x, clampI_clampI x⟩,
    fun _ _ h => ⟨clampP_mono h, clampI_mono h⟩⟩

end Sys2Proof.Machine
end

/-! PROOFS. One sample step (R68, R69) as the statements say it: the State Clamp after a move by DELTA of the code's
bits, from a committed state, where no register wraps. -/
section
namespace Sys2Proof.Machine

/-- The model's shifts are the statements' floor divisions (R66). -/
theorem codeDelta_eq_deltaOf (step : Nat) (c : Code) :
    codeDelta step c = deltaOf step (c.getLsbD 2) (c.getLsbD 1) (c.getLsbD 0) := by
  simp [codeDelta, deltaOf, selected, addend, Nat.shiftRight_eq_div_pow]

/-- The transients of PRED and SIDX fit their registers, so each clamp reads the exact sum (R22, R71). -/
theorem stateClamp_movePred_eq {s : State} {d : Nat} (c : Code) (hc : Committed s) (hd : d ≤ 589) :
    stateClamp c (movePred c d s) =
      { s with
        pred := BitVec.ofInt 11 (clampP (moved s.pred.toInt c d))
        sidx := BitVec.ofInt 7 (clampI (s.sidx.toInt + idxRom c)) } := by
  obtain ⟨⟨hp0, hp255⟩, hi0, hi48⟩ := hc
  have hmoved := moved_range (c := c) hp0 hp255 hd
  have hindex := idxRom_range c
  rw [stateClamp_eq, clampPred_pred, clampSidx_sidx, adjustSidx_sidx, movePred_pred, movePred_sidx,
    predReg_toInt (by omega) (by omega), sidxReg_toInt (by omega) (by omega)]
  rfl

theorem stateClamp_movePred_pred {s : State} {d : Nat} (c : Code) (hc : Committed s) (hd : d ≤ 589) :
    (stateClamp c (movePred c d s)).pred.toInt = clampP (moved s.pred.toInt c d) := by
  have hclamp := clampP_range (moved s.pred.toInt c d)
  rw [stateClamp_movePred_eq c hc hd, predReg_toInt (by omega) (by omega)]

/-- A sample step as a transaction of an idle core: accepted, performed, its result returned. -/
theorem returnResult_stateClamp {s : State} {step : Nat} (c : Code) (r : Nat) (hb : s.busy = false) (hc : Committed s)
    (hstep : stepRom s.sidx.toInt = some step) :
    returnResult r (stateClamp c (movePred c (codeDelta step c) (accept s))) =
      sampleResult (c.getLsbD 3) (deltaOf step (c.getLsbD 2) (c.getLsbD 1) (c.getLsbD 0)) (idxRom c) r s := by
  obtain ⟨-, -, -, hword⟩ := stepRom_eq_some hstep
  rw [stateClamp_movePred_eq (s := accept s) c hc (codeDelta_le step c hword), codeDelta_eq_deltaOf]
  simp [returnResult, accept, sampleResult, moved, hb]

end Sys2Proof.Machine
end

/-! PROOFS. DECS (R69). -/
section
namespace Sys2Proof.Machine

/-- The byte a decoder step returns is the clamped predictor. -/
theorem predByte_stateClamp {s : State} {step : Nat} (c : Code) (hc : Committed s)
    (hstep : stepRom s.sidx.toInt = some step) :
    (predByte (stateClamp c (movePred c (codeDelta step c) s))).toNat =
      decodedSample (c.getLsbD 3) (deltaOf step (c.getLsbD 2) (c.getLsbD 1) (c.getLsbD 0)) s := by
  obtain ⟨-, -, -, hword⟩ := stepRom_eq_some hstep
  have hbyte := predByte_toNat (stateClamp_committed c (movePred c (codeDelta step c) s)).1
  rw [stateClamp_movePred_pred c hc (codeDelta_le step c hword), codeDelta_eq_deltaOf] at hbyte
  rw [codeDelta_eq_deltaOf]
  exact congrArg Int.toNat hbyte

/-- The decoder step as a command, in every ready state. -/
theorem decodeCommand_eq_sampleResult {s : State} {step : Nat} (c : Code) (hb : s.busy = false) (hi : s.initd = true)
    (hc : Committed s) (hstep : stepRom s.sidx.toInt = some step) :
    let delta := deltaOf step (c.getLsbD 2) (c.getLsbD 1) (c.getLsbD 0)
    decodeCommand c s =
      .next (sampleResult (c.getLsbD 3) delta (idxRom c) (decodedSample (c.getLsbD 3) delta s) s) := by
  have hdec : decStep c (accept s) =
      some (predByte (stateClamp c (movePred c (codeDelta step c) (accept s))),
        stateClamp c (movePred c (codeDelta step c) (accept s))) := by
    rw [decStep, currentStep, accept_sidx, hstep]
  refine decodeCommand_next.mpr ⟨⟨hb, hi⟩, _, _, hdec, ?_⟩
  rw [predByte_stateClamp (s := accept s) c hc hstep, returnResult_stateClamp c _ hb hc hstep]
  rfl

/-- Settles O16: a committed SIDX has its step word, and the decoder step says the rest. -/
theorem decsDecodesCode : Obligations.DecsDecodesCode := by
  intro s c hb hi hc
  obtain ⟨step, hstep⟩ := stepRom_isSome hc.2.1 hc.2.2
  exact ⟨rfl, step, hstep, decodeCommand_eq_sampleResult c hb hi hc hstep⟩

end Sys2Proof.Machine
end

/-! PROOFS. The encoder's quantiser (R68 step 4): what one compare does to each working value, then the three in a
row. -/
section
namespace Sys2Proof.Machine

@[simp] theorem quantiseBit_diff (bit : Code) (q : Quantiser) :
    (quantiseBit bit q).diff = if q.step ≤ q.diff then q.diff - q.step else q.diff := by
  unfold quantiseBit; split <;> rfl

@[simp] theorem quantiseBit_delta (bit : Code) (q : Quantiser) :
    (quantiseBit bit q).delta = q.delta + addend (decide (q.step ≤ q.diff)) q.step := by
  unfold quantiseBit; split <;> simp [addend, *]

theorem quantiseBit_code_getLsbD (bit : Code) (q : Quantiser) (i : Nat) :
    (quantiseBit bit q).code.getLsbD i = (q.code.getLsbD i || (decide (q.step ≤ q.diff) && bit.getLsbD i)) := by
  unfold quantiseBit; split <;> simp [*]

variable (p : Int) (step : Nat) (b : Byte)

@[simp] theorem quantiserStart_diff : (quantiserStart p step b).diff = ((b.toNat : Int) - p).natAbs := rfl

@[simp] theorem quantiserStart_step : (quantiserStart p step b).step = step := rfl

@[simp] theorem quantiserStart_delta : (quantiserStart p step b).delta = step / 8 :=
  Nat.shiftRight_eq_div_pow step 3

/-- Before the first compare the code holds the sign bit alone (R68 step 2). -/
theorem quantiserStart_code_getLsbD (i : Nat) :
    (quantiserStart p step b).code.getLsbD i = (decide ((b.toNat : Int) - p < 0) && (8 : Code).getLsbD i) := by
  unfold quantiserStart; split <;> simp [*]

/-- A bit of the code is set by the sign or by the compare whose weight has that bit. -/
theorem quantise_code_getLsbD (i : Nat) :
    (quantise p step b).code.getLsbD i =
      (decide ((b.toNat : Int) - p < 0) && (8 : Code).getLsbD i ||
        decide (step ≤ ((b.toNat : Int) - p).natAbs) && (4 : Code).getLsbD i ||
        decide (step / 2 ≤ (quantiseBit 4 (quantiserStart p step b)).diff) && (2 : Code).getLsbD i ||
        decide (step / 4 ≤ (quantiseBit 2 (quantiseBit 4 (quantiserStart p step b))).diff) &&
          (1 : Code).getLsbD i) := by
  simp only [quantise, quantiseBit_code_getLsbD, quantiserStart_code_getLsbD, quantiseBit_step]
  rw [quantiserStart_step, quantiserStart_diff, Nat.div_div_eq_div_mul]

theorem quantise_sign : (quantise p step b).code.getLsbD 3 = decide ((b.toNat : Int) - p < 0) := by
  rw [quantise_code_getLsbD]; simp

theorem quantise_m2 : (quantise p step b).code.getLsbD 2 = decide (step ≤ ((b.toNat : Int) - p).natAbs) := by
  rw [quantise_code_getLsbD]; simp

theorem quantise_m1 :
    (quantise p step b).code.getLsbD 1 = decide (step / 2 ≤ (quantiseBit 4 (quantiserStart p step b)).diff) := by
  rw [quantise_code_getLsbD]; simp

theorem quantise_m0 :
    (quantise p step b).code.getLsbD 0 =
      decide (step / 4 ≤ (quantiseBit 2 (quantiseBit 4 (quantiserStart p step b))).diff) := by
  rw [quantise_code_getLsbD]; simp

/-- The encoder moves the predictor by what the decoder makes of the code: the two deltas are one (R65, R68, R69). -/
theorem quantise_delta : (quantise p step b).delta = codeDelta step (quantise p step b).code := by
  rw [codeDelta_eq_deltaOf, quantise_m2, quantise_m1, quantise_m0]
  simp only [quantise, quantiseBit_delta, quantiseBit_step, deltaOf]
  rw [quantiserStart_step, quantiserStart_diff, quantiserStart_delta, Nat.div_div_eq_div_mul]

end Sys2Proof.Machine
end

/-! PROOFS. ENCS (R68). -/
section
namespace Sys2Proof.Machine

/-- The encoder step as a command, in every ready state: the decoder step of its own code. -/
theorem execEncs_eq_sampleResult {s : State} {step : Nat} {c : Code} (b : Byte) (hb : s.busy = false)
    (hi : s.initd = true) (hc : Committed s) (hstep : stepRom s.sidx.toInt = some step)
    (hcode : c = (quantise s.pred.toInt step b).code) :
    execEncs b s =
      .next (sampleResult (c.getLsbD 3) (deltaOf step (c.getLsbD 2) (c.getLsbD 1) (c.getLsbD 0)) (idxRom c)
        c.toNat s) := by
  have henc : encStep b (accept s) = some (c, stateClamp c (movePred c (codeDelta step c) (accept s))) := by
    rw [encStep, currentStep, accept_sidx, hstep]
    simp only [accept_pred, quantise_delta, ← hcode]
  exact execEncs_next.mpr ⟨⟨hb, hi⟩, c, _, henc, (returnResult_stateClamp c _ hb hc hstep).symm⟩

/-- Settles O15: the code is the quantiser's, whose bits are the three compares and the sign. -/
theorem encsEncodesSample : Obligations.EncsEncodesSample := by
  intro s b hb hi hc
  obtain ⟨step, hstep⟩ := stepRom_isSome hc.2.1 hc.2.2
  refine ⟨rfl, step, (quantise s.pred.toInt step b).code, hstep, ?_⟩
  have hexec := execEncs_eq_sampleResult b hb hi hc hstep rfl
  have hsign := quantise_sign s.pred.toInt step b
  have hm2 := quantise_m2 s.pred.toInt step b
  have hm1 := quantise_m1 s.pred.toInt step b
  have hm0 := quantise_m0 s.pred.toInt step b
  simp only [quantiseBit_diff, quantiseBit_step, quantiserStart_step, quantiserStart_diff] at hm1 hm0
  rw [hsign, hm2, hm1, hm0] at hexec
  exact ⟨hsign, hm2, hm1, hm0, hexec⟩

end Sys2Proof.Machine
end

/-! PROOFS. INIT (R67), and the refusal of a sample operation in an uninitialised state (R72). -/
section
namespace Sys2Proof.Machine

/-- Settles O14: INIT of an idle core is the seed, with result 0. -/
theorem initSeedsState : Obligations.InitSeedsState := by
  intro s b hb
  refine ⟨execInit_next.mpr ⟨hb, ?_⟩, predReg_ofByte b, rfl⟩
  simp [returnResult, seed, setPred, setSidx, setInitd, accept, hb]

theorem sampleRefusal_uninitialised {s : State} (hb : s.busy = false) (hi : s.initd = false) :
    sampleRefusal s = some .uninitialised := by
  simp [sampleRefusal, hb, hi]

theorem execEncs_uninitialised {s : State} (b : Byte) (hb : s.busy = false) (hi : s.initd = false) :
    execEncs b s = .refused .uninitialised := by
  rw [execEncs, sampleRefusal_uninitialised hb hi, transact]

theorem decodeCommand_uninitialised {s : State} (c : Code) (hb : s.busy = false) (hi : s.initd = false) :
    decodeCommand c s = .refused .uninitialised := by
  rw [decodeCommand, sampleRefusal_uninitialised hb hi, transact]

/-- Settles O18: ENCS and DECS make the check of INITD, and INIT makes that of BUSY alone. -/
theorem uninitialisedStateIsRefused : Obligations.UninitialisedStateIsRefused :=
  fun _ hb =>
    ⟨fun hi => ⟨fun b => execEncs_uninitialised b hb hi, fun c => decodeCommand_uninitialised c hb hi⟩,
      fun _ => ⟨_, execInit_next.mpr ⟨hb, rfl⟩, rfl⟩⟩

end Sys2Proof.Machine
end

/-! PROOFS. The results of ENC and DEC (R73, R75, R77): a completed operation returns the number of bytes it wrote, which
the count alone fixes and which is 0 for a zero count only. -/
section
namespace Sys2Proof.Machine

@[simp] theorem packFlush_idxO (s : State) : (packFlush s).idxO = s.idxO + s.pkPh.toNat := by
  cases h : s.pkPh <;> simp [packFlush, h]

/-- The nibbles ENC has produced: two to each byte written, and the code that the packer holds (R74). -/
def packedNibbles (s : State) : Nat := 2 * s.idxO + s.pkPh.toNat

theorem packedNibbles_pack (c : Code) (s : State) : packedNibbles (pack c s) = packedNibbles s + 1 := by
  rw [packedNibbles, packedNibbles, pack_idxO, pack_pkPh]
  cases s.pkPh with
  | false => rfl
  | true => rw [Bool.not_true, Bool.toNat_true, Bool.toNat_false]; omega

/-- A pass of ENC packs one code. -/
theorem encIteration_packedNibbles {s t : State} (h : encIteration s = some t) :
    packedNibbles t = packedNibbles s + 1 := by
  obtain ⟨⟨c, u⟩, hu, rfl⟩ := Option.map_eq_some_iff.mp h
  obtain ⟨d, -, rfl⟩ := encStep_eq_stateClamp hu
  exact packedNibbles_pack c _

theorem encLoop_packedNibbles {k : Nat} {s t : State} (h : encLoop k s = some t) :
    packedNibbles t = packedNibbles s + k := by
  induction k generalizing s with
  | zero => cases h; rfl
  | succ k ih =>
    obtain ⟨u, hu, hloop⟩ := Option.bind_eq_some_iff.mp h
    rw [ih hloop, encIteration_packedNibbles hu]
    omega

/-- A pass of DEC writes two samples. -/
theorem decIteration_idxO {s t : State} (h : decIteration s = some t) : t.idxO = s.idxO + 2 := by
  obtain ⟨y₁, t₁, y₂, t₂, h₁, h₂, rfl⟩ := decIteration_some h
  rw [emitByte_idxO, decStep_idxO h₂, releaseHigh_idxO, emitByte_idxO, decStep_idxO h₁, holdHigh_idxO, advanceIn_idxO]

theorem decLoop_idxO {k : Nat} {s t : State} (h : decLoop k s = some t) : t.idxO = s.idxO + 2 * k := by
  induction k generalizing s with
  | zero => cases h; rfl
  | succ k ih =>
    obtain ⟨u, hu, hloop⟩ := Option.bind_eq_some_iff.mp h
    rw [ih hloop, decIteration_idxO hu]
    omega

/-- The seed byte counts as two nibbles, and PackFlush rounds up to whole bytes (R73, R74). -/
theorem encBody_result {n r : Nat} {s t : State} (h : encBody n s = some (r, t)) : r = encLength n := by
  by_cases hn : n = 0
  · rw [encBody, if_pos hn] at h
    cases h
    rw [encLength, if_pos hn]
  · rw [encBody, if_neg hn] at h
    obtain ⟨u, hu, hpair⟩ := Option.map_eq_some_iff.mp h
    cases hpair
    have hstart : packedNibbles (seedFromBuffer (beginEnc n s)) = 2 := rfl
    have hend := encLoop_packedNibbles hu
    have hheld := Bool.toNat_le u.pkPh
    rw [hstart, packedNibbles] at hend
    rw [encLength, if_neg hn, packFlush_idxO]
    omega

/-- The seed byte, then two samples to each further byte of IN (R75). -/
theorem decBody_result {m r : Nat} {s t : State} (h : decBody m s = some (r, t)) : r = decLength m := by
  by_cases hm : m = 0
  · rw [decBody, if_pos hm] at h
    cases h
    rw [decLength, if_pos hm]
  · rw [decBody, if_neg hm] at h
    obtain ⟨u, hu, hpair⟩ := Option.map_eq_some_iff.mp h
    cases hpair
    have hstart : (seedFromBuffer (beginDec m s)).idxO = 1 := rfl
    have hend := decLoop_idxO hu
    rw [hstart] at hend
    rw [decLength, if_neg hm]
    omega

theorem execEnc_res {n : Nat} {s t : State} (h : execEnc n s = .next t) : t.res = some (encLength n) := by
  obtain ⟨-, r, u, hu, rfl⟩ := execEnc_next.mp h
  rw [returnResult_res, encBody_result hu]

theorem execDec_res {m : Nat} {s t : State} (h : execDec m s = .next t) : t.res = some (decLength m) := by
  obtain ⟨-, r, u, hu, rfl⟩ := execDec_next.mp h
  rw [returnResult_res, decBody_result hu]

theorem encLength_eq_zero_iff {n : Nat} : encLength n = 0 ↔ n = 0 := by
  unfold encLength; split <;> omega

theorem decLength_eq_zero_iff {m : Nat} : decLength m = 0 ↔ m = 0 := by
  unfold decLength; split <;> omega

/-- No bytes of IN and a result of length 0 overlap nothing and fit in every OUT, so an idle core takes a zero count. -/
theorem launchable_zero {s : State} (hb : s.busy = false) : Launchable 0 0 s := by
  refine ⟨hb, Nat.two_pow_pos s.lenW, Nat.zero_le _, ?_⟩
  unfold overlapping
  split <;> simp

theorem returnResult_accept {s : State} (r : Nat) (hb : s.busy = false) :
    returnResult r (accept s) = { s with res := some r } := by
  simp [returnResult, accept, hb]

/-- Settles O24: a zero count is answered at once, and the result is a length, which is 0 for a zero count only. -/
theorem zeroCountIsNoOp : Obligations.ZeroCountIsNoOp := by
  refine ⟨fun s hb => ?_, fun s t n h hres => ?_⟩
  · rw [← returnResult_accept 0 hb]
    exact ⟨execEnc_next.mpr ⟨launchable_zero hb, 0, accept s, rfl, rfl⟩,
      execDec_next.mpr ⟨launchable_zero hb, 0, accept s, rfl, rfl⟩⟩
  · rcases h with henc | hdec
    · exact encLength_eq_zero_iff.mp (Option.some.inj ((execEnc_res henc).symm.trans hres))
    · exact decLength_eq_zero_iff.mp (Option.some.inj ((execDec_res hdec).symm.trans hres))

end Sys2Proof.Machine
end

/-! PROOFS. What a completed ENCS or DECS has done (R68, R69), read off `sampleResult`: the bounds (R81) and the
lockstep of encoder and decoder (R82). -/
section
namespace Sys2Proof.Machine

theorem sampleResult_pred_toInt (neg : Bool) (delta : Nat) (d : Int) (r : Nat) (s : State) :
    (sampleResult neg delta d r s).pred.toInt =
      clampP (if neg then s.pred.toInt - delta else s.pred.toInt + delta) := by
  have hclamp := clampP_range (if neg then s.pred.toInt - delta else s.pred.toInt + delta)
  exact predReg_toInt (by omega) (by omega)

theorem sampleResult_sidx_toInt (neg : Bool) (delta : Nat) (d : Int) (r : Nat) (s : State) :
    (sampleResult neg delta d r s).sidx.toInt = clampI (s.sidx.toInt + d) := by
  have hclamp := clampI_range (s.sidx.toInt + d)
  exact sidxReg_toInt (by omega) (by omega)

theorem sampleResult_committed (neg : Bool) (delta : Nat) (d : Int) (r : Nat) (s : State) :
    Committed (sampleResult neg delta d r s) := by
  rw [Committed, PredCommitted, SidxCommitted, sampleResult_pred_toInt, sampleResult_sidx_toInt]
  exact ⟨clampP_range _, clampI_range _⟩

/-- The decoder's output is the predictor the step leaves. -/
theorem decodedSample_eq_pred (neg : Bool) (delta : Nat) (d : Int) (r : Nat) (s : State) :
    decodedSample neg delta s = (sampleResult neg delta d r s).pred.toInt.toNat := by
  rw [sampleResult_pred_toInt, decodedSample]

/-- All a completed ENCS has done: the decoder step of the quantiser's code (R68). -/
theorem execEncs_committed {b : Byte} {s t : State} (hc : Committed s) (h : execEncs b s = .next t) :
    ∃ step c, s.busy = false ∧ s.initd = true ∧ stepRom s.sidx.toInt = some step ∧
      c = (quantise s.pred.toInt step b).code ∧
      t = sampleResult (c.getLsbD 3) (deltaOf step (c.getLsbD 2) (c.getLsbD 1) (c.getLsbD 0)) (idxRom c)
        c.toNat s := by
  obtain ⟨⟨hb, hi⟩, -⟩ := execEncs_next.mp h
  obtain ⟨step, hstep⟩ := stepRom_isSome hc.2.1 hc.2.2
  rw [execEncs_eq_sampleResult b hb hi hc hstep rfl] at h
  cases h
  exact ⟨step, _, hb, hi, hstep, rfl, rfl⟩

/-- All a completed DECS has done (R69). -/
theorem decodeCommand_committed {c : Code} {s t : State} (hc : Committed s) (h : decodeCommand c s = .next t) :
    ∃ delta r, t = sampleResult (c.getLsbD 3) delta (idxRom c) r s := by
  obtain ⟨⟨hb, hi⟩, -⟩ := decodeCommand_next.mp h
  obtain ⟨step, hstep⟩ := stepRom_isSome hc.2.1 hc.2.2
  rw [decodeCommand_eq_sampleResult c hb hi hc hstep] at h
  cases h
  exact ⟨_, _, rfl⟩

/-- Settles O19: a committed SIDX has its step word, and the State Clamp commits both fields. -/
theorem sampleStepsKeepBounds : Obligations.SampleStepsKeepBounds := by
  intro s hc
  refine ⟨fun b => ?_, fun c => ?_⟩
  · obtain ⟨⟨c, t⟩, h⟩ := encStep_isSome b hc.2
    obtain ⟨-, -, -, -, ht⟩ := encStep_some h
    exact ⟨c, t, h, ht⟩
  · obtain ⟨⟨y, t⟩, h⟩ := decStep_isSome c hc.2
    obtain ⟨-, -, rfl, -, ht⟩ := decStep_some h
    exact ⟨_, t, h, ht, predByte_toNat ht.1⟩

/-- Settles O20: ENCS leaves what DECS of its own code leaves, and the two differ in the result alone. -/
theorem decoderFollowsEncoder : Obligations.DecoderFollowsEncoder := by
  intro s t b hc h
  obtain ⟨step, c, hb, hi, hstep, -, rfl⟩ := execEncs_committed hc h
  refine ⟨c, rfl, ?_, sampleResult_committed _ _ _ _ s⟩
  rw [← decodedSample_eq_pred]
  exact decodeCommand_eq_sampleResult c hb hi hc hstep

end Sys2Proof.Machine
end

/-! PROOFS. The codes ENCS can return (R88). At one step word the differences that are given a code are an interval, so
a code is returned at all exactly when it is returned for the least difference that its set bits and its sign allow;
the table of R88 is that condition at each of the 49 words. -/
section
namespace Sys2Proof.Machine

/-- What the compares of R68 step 4 subtract from the difference for the magnitude bits of a code. -/
def subtracted (step : Nat) (c : Code) : Nat :=
  addend (c.getLsbD 2) step + addend (c.getLsbD 1) (step / 2) + addend (c.getLsbD 0) (step / 4)

/-- The magnitude bits of `c` are the answers of the three compares for the difference `d` (R68 step 4). -/
abbrev MagnitudeOf (step d : Nat) (c : Code) : Prop :=
  c.getLsbD 2 = decide (step ≤ d) ∧
  c.getLsbD 1 = decide (step / 2 ≤ d - addend (c.getLsbD 2) step) ∧
  c.getLsbD 0 = decide (step / 4 ≤ d - addend (c.getLsbD 2) step - addend (c.getLsbD 1) (step / 2))

/-- The least difference that can be given the code: a set bit was subtracted, and a set sign excludes 0. -/
def leastDiff (step : Nat) (c : Code) : Nat := max (subtracted step c) (c.getLsbD 3).toNat

/-- Two bytes differ by at most 255, and the least difference that can be given the code is given it. -/
abbrev Producible (step : Nat) (c : Code) : Prop :=
  leastDiff step c ≤ 255 ∧ MagnitudeOf step (leastDiff step c) c

/-- A compare subtracts the step or nothing, as its bit says. -/
theorem quantiseBit_diff_eq_sub (bit : Code) (q : Quantiser) :
    (quantiseBit bit q).diff = q.diff - addend (decide (q.step ≤ q.diff)) q.step := by
  by_cases h : q.step ≤ q.diff <;> simp [addend, h]

theorem quantise_magnitudeOf (p : Int) (step : Nat) (b : Byte) :
    MagnitudeOf step ((b.toNat : Int) - p).natAbs (quantise p step b).code := by
  have hm2 := quantise_m2 p step b
  have hm1 := quantise_m1 p step b
  have hm0 := quantise_m0 p step b
  rw [quantiseBit_diff_eq_sub, quantiserStart_step, quantiserStart_diff, ← hm2] at hm1
  rw [quantiseBit_diff_eq_sub, quantiseBit_step, quantiseBit_diff_eq_sub, quantiserStart_step, quantiserStart_diff,
    ← hm2, ← hm1] at hm0
  exact ⟨hm2, hm1, hm0⟩

theorem code_eq_of_bits : ∀ c c' : Code, c.getLsbD 3 = c'.getLsbD 3 → c.getLsbD 2 = c'.getLsbD 2 →
    c.getLsbD 1 = c'.getLsbD 1 → c.getLsbD 0 = c'.getLsbD 0 → c = c' := by decide

/-- The sign and the difference fix the code. -/
theorem MagnitudeOf.unique {step d : Nat} {c c' : Code} (h : MagnitudeOf step d c) (h' : MagnitudeOf step d c')
    (hsign : c.getLsbD 3 = c'.getLsbD 3) : c = c' := by
  obtain ⟨hm2, hm1, hm0⟩ := h
  obtain ⟨hm2', hm1', hm0'⟩ := h'
  have h2 : c.getLsbD 2 = c'.getLsbD 2 := hm2.trans hm2'.symm
  have h1 : c.getLsbD 1 = c'.getLsbD 1 := by rw [hm1, hm1', h2]
  have h0 : c.getLsbD 0 = c'.getLsbD 0 := by rw [hm0, hm0', h2, h1]
  exact code_eq_of_bits c c' hsign h2 h1 h0

theorem addend_le_of_compare {m : Bool} {x y : Nat} (h : m = decide (x ≤ y)) : addend m x ≤ y := by
  cases m with
  | false => exact Nat.zero_le y
  | true => exact of_decide_eq_true h.symm

/-- A compare answers the same for a smaller difference, as long as what its bit subtracts is left. -/
theorem compare_of_le {m : Bool} {x y y' : Nat} (h : m = decide (x ≤ y)) (hlow : addend m x ≤ y') (hle : y' ≤ y) :
    m = decide (x ≤ y') := by
  cases m with
  | false =>
    have hxy : ¬ x ≤ y := of_decide_eq_false h.symm
    exact (decide_eq_false (by omega)).symm
  | true => exact (decide_eq_true hlow).symm

theorem MagnitudeOf.subtracted_le {step d : Nat} {c : Code} (h : MagnitudeOf step d c) : subtracted step c ≤ d := by
  obtain ⟨hm2, hm1, hm0⟩ := h
  have h2 := addend_le_of_compare hm2
  have h1 := addend_le_of_compare hm1
  have h0 := addend_le_of_compare hm0
  unfold subtracted
  omega

/-- The differences given a magnitude are an interval that begins, if it is not empty, at what the bits subtract. -/
theorem MagnitudeOf.of_le {step d d' : Nat} {c : Code} (h : MagnitudeOf step d c) (hlow : subtracted step c ≤ d')
    (hle : d' ≤ d) : MagnitudeOf step d' c := by
  obtain ⟨hm2, hm1, hm0⟩ := h
  unfold subtracted at hlow
  exact ⟨compare_of_le hm2 (by omega) hle, compare_of_le hm1 (by omega) (by omega),
    compare_of_le hm0 (by omega) (by omega)⟩

/-- A code that the quantiser returns for a committed predictor is producible. -/
theorem quantise_producible {p : Int} {step : Nat} {b : Byte} (h0 : 0 ≤ p) (h255 : p ≤ 255) :
    Producible step (quantise p step b).code := by
  have hmag := quantise_magnitudeOf p step b
  have hb := b.isLt
  have hsign : ((quantise p step b).code.getLsbD 3).toNat ≤ ((b.toNat : Int) - p).natAbs := by
    rw [quantise_sign]
    by_cases hneg : (b.toNat : Int) - p < 0
    · rw [decide_eq_true hneg, Bool.toNat_true]; omega
    · rw [decide_eq_false hneg]; exact Nat.zero_le _
  have hleast : leastDiff step (quantise p step b).code ≤ ((b.toNat : Int) - p).natAbs :=
    max_le hmag.subtracted_le hsign
  exact ⟨by omega, hmag.of_le (le_max_left _ _) hleast⟩

/-- A producible code is returned: from PRED 0 up to the least difference, or from it down to 0. -/
theorem exists_quantise_of_producible {step : Nat} {c : Code} (h : Producible step c) :
    ∃ (p : Int) (b : Byte), 0 ≤ p ∧ p ≤ 255 ∧ (quantise p step b).code = c := by
  obtain ⟨hle, hmag⟩ := h
  have hsign : (c.getLsbD 3).toNat ≤ leastDiff step c := le_max_right _ _
  generalize leastDiff step c = d at hle hmag hsign
  have hreturned : ∀ (p : Int) (b : Byte), ((b.toNat : Int) - p).natAbs = d →
      decide ((b.toNat : Int) - p < 0) = c.getLsbD 3 → (quantise p step b).code = c := by
    intro p b hd hs
    have hq := quantise_magnitudeOf p step b
    rw [hd] at hq
    exact hq.unique hmag ((quantise_sign p step b).trans hs)
  cases hs : c.getLsbD 3 with
  | false =>
    have hb : (BitVec.ofNat 8 d).toNat = d := by rw [BitVec.toNat_ofNat]; omega
    refine ⟨0, BitVec.ofNat 8 d, le_rfl, by decide, hreturned _ _ ?_ ?_⟩
    · rw [hb]; omega
    · rw [hb, hs]; exact decide_eq_false (by omega)
  | true =>
    rw [hs, Bool.toNat_true] at hsign
    refine ⟨d, 0, by omega, by omega, hreturned _ _ ?_ ?_⟩
    · simp
    · rw [hs]; exact decide_eq_true (by simp; omega)

/-- The table of R88, row by row: at each index of STEP_ROM the producible codes are the ones it lists. -/
theorem encoderCodes_eq_producible :
    ∀ i : Fin 49, ∀ c : Code,
      Producible (stepRomContents[i]'i.isLt) c ↔ c.toNat ∈ encoderCodes (i.val : Int) := by
  decide

end Sys2Proof.Machine
end

/-! PROOFS. The table of R88 and the dynamics of SIDX (R89) as commands show them. -/
section
namespace Sys2Proof.Machine

theorem producible_iff_tabulated {sidx : Int} {step : Nat} (h : stepRom sidx = some step) (c : Code) :
    Producible step c ↔ c.toNat ∈ encoderCodes sidx := by
  obtain ⟨h0, h48, -⟩ := stepRom_eq_some h
  lift sidx to Nat using h0
  rw [stepRom_natCast] at h
  obtain ⟨hlt, rfl⟩ := List.getElem?_eq_some_iff.mp h
  exact encoderCodes_eq_producible ⟨sidx, by omega⟩ c

/-- A completed ENCS returns a code of the table's row and leaves what a decoder step of that code leaves. -/
theorem execEncs_tabulated {b : Byte} {s t : State} (hc : Committed s) (h : execEncs b s = .next t) :
    ∃ (c : Code) (delta : Nat), c.toNat ∈ encoderCodes s.sidx.toInt ∧
      t = sampleResult (c.getLsbD 3) delta (idxRom c) c.toNat s := by
  obtain ⟨step, c, -, -, hstep, rfl, rfl⟩ := execEncs_committed hc h
  exact ⟨_, _, (producible_iff_tabulated hstep _).mp (quantise_producible hc.1.1 hc.1.2), rfl⟩

/-- An idle initialised core with the given PRED and SIDX. -/
def initialisedAt (p sidx : Int) : State := setInitd (setSidx sidx (setPred p State.reset))

/-- A tabulated code is returned by ENCS of some byte in some committed state with the row's SIDX. -/
theorem exists_execEncs_of_tabulated {sidx : Int} {c : Code} (h0 : 0 ≤ sidx) (h48 : sidx ≤ 48)
    (h : c.toNat ∈ encoderCodes sidx) :
    ∃ (s t : State) (b : Byte), Committed s ∧ s.sidx.toInt = sidx ∧ execEncs b s = .next t ∧
      t.res = some c.toNat := by
  obtain ⟨step, hstep⟩ := stepRom_isSome h0 h48
  obtain ⟨p, b, hp0, hp255, hcode⟩ := exists_quantise_of_producible ((producible_iff_tabulated hstep c).mpr h)
  have hpred : (initialisedAt p sidx).pred.toInt = p := predReg_toInt (by omega) (by omega)
  have hsidx : (initialisedAt p sidx).sidx.toInt = sidx := sidxReg_toInt (by omega) (by omega)
  have hc : Committed (initialisedAt p sidx) := by
    rw [Committed, PredCommitted, SidxCommitted, hpred, hsidx]
    exact ⟨⟨hp0, hp255⟩, h0, h48⟩
  rw [← hpred] at hcode
  rw [← hsidx] at hstep
  exact ⟨_, _, b, hc, hsidx, execEncs_eq_sampleResult b rfl rfl hc hstep hcode.symm, rfl⟩

/-- Settles O22: ENCS returns the producible codes, which are the tabulated ones, and DECS completes in every ready
state. -/
theorem encoderCodesAreTabulated : Obligations.EncoderCodesAreTabulated := by
  refine fun sidx c h0 h48 => ⟨⟨?_, exists_execEncs_of_tabulated h0 h48⟩, ?_⟩
  · rintro ⟨s, t, b, hc, rfl, h, hres⟩
    obtain ⟨c', delta, hmem, rfl⟩ := execEncs_tabulated hc h
    have hcode : c'.toNat = c.toNat := Option.some.inj hres
    exact hcode ▸ hmem
  · rintro s ⟨⟨hb, -⟩, hi, hc⟩
    obtain ⟨step, hstep⟩ := stepRom_isSome hc.2.1 hc.2.2
    exact ⟨_, decodeCommand_eq_sampleResult c hb hi hc hstep⟩

/-- SIDX moves by IDX_ROM of the code and saturates: down by 1, or up by 2, 4, 6 or 8 (R61, R89). -/
theorem clampI_add_idxRom {i : Int} (c : Code) (h0 : 0 ≤ i) (h48 : i ≤ 48) :
    (c.getLsbD 2 = false → clampI (i + idxRom c) = max 0 (i - 1)) ∧
    (c.getLsbD 2 = true → clampI (i + idxRom c) = min 48 (i + 2 * (((c.toNat % 8 : Nat) : Int) - 3))) ∧
    (clampI (i + idxRom c) = 0 → i ≤ 1) := by
  have hrange := idxRom_range c
  refine ⟨fun h => ?_, fun h => ?_, fun h => ?_⟩
  · rw [idxRom_of_m2_clear c h, clampI]
    omega
  · have hge : ∀ c : Code, c.getLsbD 2 = true → 4 ≤ c.toNat % 8 := by decide
    have hm := hge c h
    rw [idxRom_of_m2_set c h, clampI]
    omega
  · unfold clampI at h
    omega

/-- The codes of the table's first row move SIDX from 0 to 0 (saturating) or to 8. -/
theorem clampI_idxRom_of_first_row :
    ∀ c : Code, c.toNat ∈ encoderCodes 0 → (c.toNat = 3 ∨ c.toNat = 7 ∨ c.toNat = 15) ∧
      (clampI (0 + idxRom c) = 0 ∨ clampI (0 + idxRom c) = 8) := by
  decide

/-- Settles O23: the State Clamp adds IDX_ROM of the code to SIDX, and a seeded SIDX of 0 admits the codes of the
table's first row alone. -/
theorem stepIndexDynamics : Obligations.StepIndexDynamics := by
  refine ⟨fun s t c hc h => ?_, fun s t b hc h => ?_, fun s t u a b hinit h => ?_⟩
  · obtain ⟨delta, r, rfl⟩ := decodeCommand_committed hc h
    rw [sampleResult_sidx_toInt]
    exact ⟨rfl, clampI_add_idxRom c hc.2.1 hc.2.2⟩
  · obtain ⟨c, delta, -, rfl⟩ := execEncs_tabulated hc h
    rw [sampleResult_sidx_toInt]
    exact ⟨c, rfl, rfl, clampI_add_idxRom c hc.2.1 hc.2.2⟩
  · obtain ⟨-, rfl⟩ := execInit_next.mp hinit
    have hc : Committed (returnResult 0 (seed a (accept s))) := seed_committed a (accept s)
    obtain ⟨c, delta, hmem, rfl⟩ := execEncs_tabulated hc h
    obtain ⟨hcode, hsidx⟩ := clampI_idxRom_of_first_row c hmem
    rw [sampleResult_sidx_toInt]
    exact ⟨hcode.imp (congrArg some) (Or.imp (congrArg some) (congrArg some)), hsidx⟩

end Sys2Proof.Machine
end

/-! PROOFS. A completed ENC or DEC with a count of at least 1, taken apart: the seed, the loop, the result. From it the
length law (R83), the buffer of one byte (R91) and the first output byte (R84). -/
section
namespace Sys2Proof.Machine

theorem execEnc_pos_next {n : Nat} {s t : State} (hn : 0 < n) (h : execEnc n s = .next t) :
    ∃ u, encLoop (n - 1) (seedFromBuffer (beginEnc n (accept s))) = some u ∧
      t = returnResult (packFlush u).idxO (packFlush u) := by
  obtain ⟨-, r, v, hv, rfl⟩ := execEnc_next.mp h
  rw [encBody, if_neg hn.ne'] at hv
  obtain ⟨u, hu, hpair⟩ := Option.map_eq_some_iff.mp hv
  cases hpair
  exact ⟨u, hu, rfl⟩

theorem execDec_pos_next {m : Nat} {s t : State} (hm : 0 < m) (h : execDec m s = .next t) :
    ∃ u, decLoop (m - 1) (seedFromBuffer (beginDec m (accept s))) = some u ∧ t = returnResult u.idxO u := by
  obtain ⟨-, r, v, hv, rfl⟩ := execDec_next.mp h
  rw [decBody, if_neg hm.ne'] at hv
  obtain ⟨u, hu, hpair⟩ := Option.map_eq_some_iff.mp hv
  cases hpair
  exact ⟨v, hu, rfl⟩

/-! ### The length law -/

/-- The result of ENC is the number of bytes written, so both are the length. -/
theorem execEnc_idxO {n : Nat} {s t : State} (hn : 0 < n) (h : execEnc n s = .next t) : t.idxO = encLength n := by
  have hres := execEnc_res h
  obtain ⟨u, -, rfl⟩ := execEnc_pos_next hn h
  exact Option.some.inj hres

theorem execDec_idxO {m : Nat} {s t : State} (hm : 0 < m) (h : execDec m s = .next t) : t.idxO = decLength m := by
  have hres := execDec_res h
  obtain ⟨u, -, rfl⟩ := execDec_pos_next hm h
  exact Option.some.inj hres

theorem encLength_of_pos {n : Nat} (hn : 0 < n) : encLength n = 1 + (n - 1 + 1) / 2 := by
  rw [encLength, if_neg hn.ne', Nat.sub_add_cancel hn]

theorem decLength_of_pos {m : Nat} (hm : 0 < m) : decLength m = 1 + (m - 1) * 2 := if_neg hm.ne'

/-- An odd length is restored; an even one comes back one longer, for the nibble that fills the last byte (R83). -/
theorem decLength_encLength {n : Nat} (hn : 0 < n) : decLength (encLength n) = n + (n + 1) % 2 := by
  rw [decLength, encLength, if_neg hn.ne', if_neg (by omega)]
  omega

/-- Settles O29: the results are the lengths, which compose by arithmetic. -/
theorem lengthLaw : Obligations.LengthLaw := by
  refine ⟨fun s t n hn h => ?_, fun s t m hm h => ?_, fun s t u v n m hn henc hm hdec => ?_⟩
  · rw [← encLength_of_pos hn]
    exact ⟨execEnc_res h, execEnc_idxO hn h⟩
  · rw [← decLength_of_pos hm]
    exact ⟨execDec_res h, execDec_idxO hm h⟩
  · obtain rfl : encLength n = m := Option.some.inj ((execEnc_res henc).symm.trans hm)
    have hres := execDec_res hdec
    rw [decLength_encLength hn] at hres
    refine ⟨fun hodd => ?_, fun heven => ?_⟩ <;> rw [hres] <;> congr 1 <;> omega

/-! ### The seed from the buffer -/

theorem seedFromBuffer_outMem (s : State) :
    (seedFromBuffer s).outMem = Memory.write s.outMem s.idxO (Memory.read s.inMem 0) := rfl

theorem seedFromBuffer_pred_toInt (s : State) : (seedFromBuffer s).pred.toInt = (Memory.read s.inMem 0).toNat :=
  predReg_ofByte _

theorem seedFromBuffer_sidx_toInt (s : State) : (seedFromBuffer s).sidx.toInt = 0 :=
  sidxReg_toInt (by decide) (by decide)

/-- Where OUT is still to be written, its first byte is the first byte of IN (R73 step 1, R75). -/
theorem seedFromBuffer_read_zero {s : State} (hwf : s.outMem.wf = true) (hout : s.idxO = 0) :
    Memory.read (seedFromBuffer s).outMem 0 = Memory.read s.inMem 0 := by
  rw [seedFromBuffer_outMem, hout, read_write_same _ _ _ 0 hwf]

/-- Settles O31: with a count of 1 neither loop makes a pass, so each operation is its seed. -/
theorem singleByteBuffer : Obligations.SingleByteBuffer := by
  rintro s x hwf hlaunch rfl
  have henc : execEnc 1 s = .next (returnResult 1 (seedFromBuffer (beginEnc 1 (accept s)))) :=
    execEnc_next.mpr ⟨hlaunch, 1, _, rfl, rfl⟩
  have hdec : execDec 1 s = .next (returnResult 1 (seedFromBuffer (beginDec 1 (accept s)))) :=
    execDec_next.mpr ⟨hlaunch, 1, _, rfl, rfl⟩
  exact ⟨⟨_, henc, seedFromBuffer_read_zero hwf rfl, rfl, rfl, seedFromBuffer_pred_toInt (beginEnc 1 (accept s)),
      seedFromBuffer_sidx_toInt (beginEnc 1 (accept s))⟩,
    ⟨_, hdec, seedFromBuffer_read_zero hwf rfl, rfl, rfl, seedFromBuffer_pred_toInt (beginDec 1 (accept s)),
      seedFromBuffer_sidx_toInt (beginDec 1 (accept s))⟩⟩

/-! ### OUT is written upwards -/

/-- IDX_O has not gone back, and the OUT bytes that were below it are as they were (R33, R34). -/
def KeepsWritten (s t : State) : Prop :=
  s.idxO ≤ t.idxO ∧ ∀ a < s.idxO, Memory.read t.outMem a = Memory.read s.outMem a

theorem KeepsWritten.of_eq {s t : State} (hidx : t.idxO = s.idxO) (hout : t.outMem = s.outMem) : KeepsWritten s t :=
  ⟨hidx.ge, fun _ _ => by rw [hout]⟩

theorem KeepsWritten.trans {s t u : State} (h : KeepsWritten s t) (h' : KeepsWritten t u) : KeepsWritten s u := by
  obtain ⟨hle, hkept⟩ := h
  obtain ⟨hle', hkept'⟩ := h'
  exact ⟨hle.trans hle', fun a ha => (hkept' a (ha.trans_le hle)).trans (hkept a ha)⟩

theorem emitByte_keepsWritten (b : Byte) (s : State) : KeepsWritten s (emitByte b s) :=
  ⟨Nat.le_succ _, fun a ha => read_write_other s.outMem s.idxO a b ha.ne⟩

theorem pack_keepsWritten (c : Code) (s : State) : KeepsWritten s (pack c s) := by
  cases h : s.pkPh with
  | false => rw [pack_first c h]; exact .of_eq rfl rfl
  | true => rw [pack_second c h]; exact emitByte_keepsWritten _ s

theorem packFlush_keepsWritten (s : State) : KeepsWritten s (packFlush s) := by
  cases h : s.pkPh with
  | false => rw [packFlush_empty h]; exact .of_eq rfl rfl
  | true => rw [packFlush_held h]; exact emitByte_keepsWritten _ s

theorem encIteration_keepsWritten {s t : State} (h : encIteration s = some t) : KeepsWritten s t := by
  obtain ⟨⟨c, u⟩, hu, rfl⟩ := Option.map_eq_some_iff.mp h
  obtain ⟨d, -, rfl⟩ := encStep_eq_stateClamp hu
  exact pack_keepsWritten c (stateClamp c (movePred c d (advanceIn s)))

theorem encLoop_keepsWritten {k : Nat} {s t : State} (h : encLoop k s = some t) : KeepsWritten s t := by
  induction k generalizing s with
  | zero => cases h; exact .of_eq rfl rfl
  | succ k ih =>
    obtain ⟨u, hu, hloop⟩ := Option.bind_eq_some_iff.mp h
    exact (encIteration_keepsWritten hu).trans (ih hloop)

theorem decStep_keepsWritten {c : Code} {y : Byte} {s t : State} (h : decStep c s = some (y, t)) :
    KeepsWritten s t := by
  obtain ⟨d, -, rfl⟩ := decStep_eq_stateClamp h
  exact .of_eq rfl rfl

theorem decIteration_keepsWritten {s t : State} (h : decIteration s = some t) : KeepsWritten s t := by
  obtain ⟨y₁, t₁, y₂, t₂, h₁, h₂, rfl⟩ := decIteration_some h
  have hheld : KeepsWritten s (holdHigh (readIn s.idxI s) (advanceIn s)) := .of_eq rfl rfl
  have hlow := (hheld.trans (decStep_keepsWritten h₁)).trans (emitByte_keepsWritten y₁ t₁)
  have hreleased : KeepsWritten (emitByte y₁ t₁) (releaseHigh (emitByte y₁ t₁)) := .of_eq rfl rfl
  have hhigh := (hreleased.trans (decStep_keepsWritten h₂)).trans (emitByte_keepsWritten y₂ t₂)
  exact hlow.trans hhigh

theorem decLoop_keepsWritten {k : Nat} {s t : State} (h : decLoop k s = some t) : KeepsWritten s t := by
  induction k generalizing s with
  | zero => cases h; exact .of_eq rfl rfl
  | succ k ih =>
    obtain ⟨u, hu, hloop⟩ := Option.bind_eq_some_iff.mp h
    exact (decIteration_keepsWritten hu).trans (ih hloop)

/-- Settles O30: the seed writes IN's first byte at index 0, and what follows keeps what is below IDX_O. -/
theorem firstSampleIdentity : Obligations.FirstSampleIdentity := by
  rintro s t n hn hwf (h | h)
  · obtain ⟨u, hu, rfl⟩ := execEnc_pos_next hn h
    obtain ⟨-, hkept⟩ := (encLoop_keepsWritten hu).trans (packFlush_keepsWritten u)
    exact (hkept 0 Nat.one_pos).trans (seedFromBuffer_read_zero hwf rfl)
  · obtain ⟨u, hu, rfl⟩ := execDec_pos_next hn h
    obtain ⟨-, hkept⟩ := decLoop_keepsWritten hu
    exact (hkept 0 Nat.one_pos).trans (seedFromBuffer_read_zero hwf rfl)

end Sys2Proof.Machine
end

/-! PROOFS. Determinism (R85): two runs side by side. A sample step is a function of PRED, SIDX and its operand; ENC and
DEC read nothing else that they have not written themselves, but the IN bytes below the count. -/
section
namespace Sys2Proof.Machine

/-! ### Two sample steps from the same PRED and SIDX -/

section
variable {s s' t t' : State}

theorem stateClamp_movePred_congr (c : Code) (d : Nat) (hpred : s.pred = s'.pred) (hsidx : s.sidx = s'.sidx) :
    (stateClamp c (movePred c d s)).pred = (stateClamp c (movePred c d s')).pred ∧
      (stateClamp c (movePred c d s)).sidx = (stateClamp c (movePred c d s')).sidx := by
  simp only [stateClamp_eq, clampPred_pred, movePred_pred, clampSidx_sidx, adjustSidx_sidx, movePred_sidx, hpred, hsidx,
    and_self]

theorem currentStep_congr (hsidx : s.sidx = s'.sidx) : currentStep s = currentStep s' :=
  congrArg (fun i : SidxReg => stepRom i.toInt) hsidx

/-- Two encoder steps of the same byte return the same code and make the same move. -/
theorem encStep_congr {b : Byte} {c c' : Code} (hpred : s.pred = s'.pred) (hsidx : s.sidx = s'.sidx)
    (h : encStep b s = some (c, t)) (h' : encStep b s' = some (c', t')) :
    c = c' ∧ ∃ d, t = stateClamp c (movePred c d s) ∧ t' = stateClamp c (movePred c d s') := by
  obtain ⟨step, hstep, hc, ht, -⟩ := encStep_some h
  obtain ⟨step', hstep', hc', ht', -⟩ := encStep_some h'
  obtain rfl : step = step' := Option.some.inj (hstep.symm.trans ((currentStep_congr hsidx).trans hstep'))
  rw [← hpred] at hc' ht'
  obtain rfl : c = c' := hc.trans hc'.symm
  exact ⟨rfl, _, ht, ht'⟩

/-- Two decoder steps of the same code return the same sample and make the same move. -/
theorem decStep_congr {c : Code} {y y' : Byte} (hpred : s.pred = s'.pred) (hsidx : s.sidx = s'.sidx)
    (h : decStep c s = some (y, t)) (h' : decStep c s' = some (y', t')) :
    y = y' ∧ ∃ d, t = stateClamp c (movePred c d s) ∧ t' = stateClamp c (movePred c d s') := by
  obtain ⟨step, hstep, hy, ht, -⟩ := decStep_some h
  obtain ⟨step', hstep', hy', ht', -⟩ := decStep_some h'
  obtain rfl : step = step' := Option.some.inj (hstep.symm.trans ((currentStep_congr hsidx).trans hstep'))
  obtain ⟨hmove, -⟩ := stateClamp_movePred_congr c (codeDelta step c) hpred hsidx
  refine ⟨?_, _, ht, ht'⟩
  rw [hy, hy', predByte, predByte, ht, ht', hmove]

theorem execEncs_congr {b : Byte} (hpred : s.pred = s'.pred) (hsidx : s.sidx = s'.sidx)
    (h : execEncs b s = .next t) (h' : execEncs b s' = .next t') :
    t.res = t'.res ∧ t.pred = t'.pred ∧ t.sidx = t'.sidx := by
  obtain ⟨-, c, u, hu, rfl⟩ := execEncs_next.mp h
  obtain ⟨-, c', u', hu', rfl⟩ := execEncs_next.mp h'
  obtain ⟨rfl, d, rfl, rfl⟩ := encStep_congr (s := accept s) (s' := accept s') hpred hsidx hu hu'
  rw [returnResult_res, returnResult_res]
  exact ⟨rfl, stateClamp_movePred_congr (s := accept s) (s' := accept s') c d hpred hsidx⟩

theorem decodeCommand_congr {c : Code} (hpred : s.pred = s'.pred) (hsidx : s.sidx = s'.sidx)
    (h : decodeCommand c s = .next t) (h' : decodeCommand c s' = .next t') :
    t.res = t'.res ∧ t.pred = t'.pred ∧ t.sidx = t'.sidx := by
  obtain ⟨-, y, u, hu, rfl⟩ := decodeCommand_next.mp h
  obtain ⟨-, y', u', hu', rfl⟩ := decodeCommand_next.mp h'
  obtain ⟨rfl, d, rfl, rfl⟩ := decStep_congr (s := accept s) (s' := accept s') hpred hsidx hu hu'
  rw [returnResult_res, returnResult_res]
  exact ⟨rfl, stateClamp_movePred_congr (s := accept s) (s' := accept s') c d hpred hsidx⟩

end

/-! ### Two buffer operations in step -/

/-- Two runs of a buffer operation with count `n` are at the same place with the same values: the state register and the
indices agree, IN below the count, and OUT below IDX_O. -/
structure InStep (n : Nat) (s s' : State) : Prop where
  pred : s.pred = s'.pred
  sidx : s.sidx = s'.sidx
  initd : s.initd = s'.initd
  idxI : s.idxI = s'.idxI
  idxO : s.idxO = s'.idxO
  input : ∀ a < n, Memory.read s.inMem a = Memory.read s'.inMem a
  wf : s.outMem.wf = true
  wf' : s'.outMem.wf = true
  output : ∀ a < s.idxO, Memory.read s.outMem a = Memory.read s'.outMem a

section
variable {n k : Nat} {s s' t t' : State}

theorem InStep.readIn_eq (h : InStep n s s') (hi : s.idxI < n) : readIn s.idxI s = readIn s'.idxI s' := by
  rw [← h.idxI]
  exact h.input _ hi

theorem InStep.advanceIn (h : InStep n s s') : InStep n (advanceIn s) (advanceIn s') :=
  { h with idxI := congrArg (· + 1) h.idxI }

theorem InStep.stateClamp (h : InStep n s s') (c : Code) (d : Nat) :
    InStep n (stateClamp c (movePred c d s)) (stateClamp c (movePred c d s')) :=
  have ⟨hpred, hsidx⟩ := stateClamp_movePred_congr c d h.pred h.sidx
  { h with pred := hpred, sidx := hsidx }

theorem InStep.emitByte (h : InStep n s s') (b : Byte) : InStep n (emitByte b s) (emitByte b s') :=
  { h with
    idxO := congrArg (· + 1) h.idxO
    wf := write_wf _ _ _ h.wf
    wf' := write_wf _ _ _ h.wf'
    output := by
      intro a ha
      rw [emitByte_idxO] at ha
      rw [emitByte_outMem, emitByte_outMem, read_write _ _ _ _ h.wf, read_write _ _ _ _ h.wf', ← h.idxO]
      by_cases hlast : a = s.idxO
      · rw [if_pos hlast, if_pos hlast]
      · rw [if_neg hlast, if_neg hlast]
        exact h.output a (by omega) }

/-- After the seed the two runs are in step, whatever PRED, SIDX and INITD were before. -/
theorem seedFromBuffer_inStep (hn : 0 < n) (hidxI : s.idxI = s'.idxI) (hidxO : s.idxO = 0) (hidxO' : s'.idxO = 0)
    (hin : ∀ a < n, Memory.read s.inMem a = Memory.read s'.inMem a) (hwf : s.outMem.wf = true)
    (hwf' : s'.outMem.wf = true) : InStep n (seedFromBuffer s) (seedFromBuffer s') := by
  have hseeded : InStep n (seed (readIn 0 s) (Machine.advanceIn s)) (seed (readIn 0 s) (Machine.advanceIn s')) :=
    { pred := rfl, sidx := rfl, initd := rfl, idxI := congrArg (· + 1) hidxI, idxO := hidxO.trans hidxO'.symm
      input := hin, wf := hwf, wf' := hwf'
      output := fun a ha => absurd ha (hidxO ▸ Nat.not_lt_zero a) }
  have hbyte : readIn 0 s = readIn 0 s' := hin 0 hn
  have hemitted := hseeded.emitByte (readIn 0 s)
  rw [seedFromBuffer, seedFromBuffer, ← hbyte]
  exact hemitted

/-! ### ENC -/

/-- Two runs of ENC in step, their packers too. -/
structure EncInStep (n : Nat) (s s' : State) : Prop extends InStep n s s' where
  pkPh : s.pkPh = s'.pkPh
  pkLo : s.pkPh = true → s.pkLo = s'.pkLo

theorem EncInStep.pack (h : EncInStep n s s') (c : Code) : EncInStep n (pack c s) (pack c s') := by
  cases hp : s.pkPh with
  | false =>
    rw [pack_first c hp, pack_first c (h.pkPh ▸ hp)]
    exact ⟨{ h.toInStep with }, rfl, fun _ => rfl⟩
  | true =>
    rw [pack_second c hp, pack_second c (h.pkPh ▸ hp), ← h.pkLo hp]
    exact ⟨{ h.toInStep.emitByte (packedByte s.pkLo c) with }, rfl, nofun⟩

theorem EncInStep.packFlush (h : EncInStep n s s') : InStep n (packFlush s) (packFlush s') := by
  cases hp : s.pkPh with
  | false =>
    rw [packFlush_empty hp, packFlush_empty (h.pkPh ▸ hp)]
    exact h.toInStep
  | true =>
    rw [packFlush_held hp, packFlush_held (h.pkPh ▸ hp), ← h.pkLo hp]
    exact { h.toInStep.emitByte (packedByte s.pkLo 0) with }

theorem encIteration_idxI (h : encIteration s = some t) : t.idxI = s.idxI + 1 := by
  obtain ⟨⟨c, u⟩, hu, rfl⟩ := Option.map_eq_some_iff.mp h
  obtain ⟨d, -, rfl⟩ := encStep_eq_stateClamp hu
  exact pack_idxI c _

theorem EncInStep.encIteration (h : EncInStep n s s') (hi : s.idxI < n) (ht : encIteration s = some t)
    (ht' : encIteration s' = some t') : EncInStep n t t' := by
  obtain ⟨⟨c, u⟩, hu, rfl⟩ := Option.map_eq_some_iff.mp ht
  obtain ⟨⟨c', u'⟩, hu', rfl⟩ := Option.map_eq_some_iff.mp ht'
  rw [← h.readIn_eq hi] at hu'
  have hnext := h.toInStep.advanceIn
  obtain ⟨rfl, d, rfl, rfl⟩ := encStep_congr hnext.pred hnext.sidx hu hu'
  exact EncInStep.pack ⟨hnext.stateClamp c d, h.pkPh, h.pkLo⟩ c

theorem EncInStep.encLoop (h : EncInStep n s s') (hi : s.idxI + k ≤ n) (ht : encLoop k s = some t)
    (ht' : encLoop k s' = some t') : EncInStep n t t' := by
  induction k generalizing s s' with
  | zero => cases ht; cases ht'; exact h
  | succ k ih =>
    obtain ⟨u, hu, hloop⟩ := Option.bind_eq_some_iff.mp ht
    obtain ⟨u', hu', hloop'⟩ := Option.bind_eq_some_iff.mp ht'
    have hidxI := encIteration_idxI hu
    exact ih (h.encIteration (by omega) hu hu') (by omega) hloop hloop'

theorem execEnc_inStep (hn : 0 < n) (hwf : s.outMem.wf = true) (hwf' : s'.outMem.wf = true)
    (hin : ∀ a < n, Memory.read s.inMem a = Memory.read s'.inMem a) (h : execEnc n s = .next t)
    (h' : execEnc n s' = .next t') : InStep n t t' := by
  obtain ⟨u, hu, rfl⟩ := execEnc_pos_next hn h
  obtain ⟨u', hu', rfl⟩ := execEnc_pos_next hn h'
  have hstart : EncInStep n (seedFromBuffer (beginEnc n (accept s))) (seedFromBuffer (beginEnc n (accept s'))) :=
    ⟨seedFromBuffer_inStep hn rfl rfl rfl hin hwf hwf', rfl, nofun⟩
  have hread : (seedFromBuffer (beginEnc n (accept s))).idxI = 1 := rfl
  have hend := hstart.encLoop (by omega) hu hu'
  exact { hend.packFlush with }

/-! ### DEC -/

theorem decIteration_idxI (h : decIteration s = some t) : t.idxI = s.idxI + 1 := by
  obtain ⟨y₁, t₁, y₂, t₂, h₁, h₂, rfl⟩ := decIteration_some h
  obtain ⟨d₁, -, rfl⟩ := decStep_eq_stateClamp h₁
  obtain ⟨d₂, -, rfl⟩ := decStep_eq_stateClamp h₂
  rfl

theorem decStep_upHi {c : Code} {y : Byte} (h : decStep c s = some (y, t)) : t.upHi = s.upHi := by
  obtain ⟨d, -, rfl⟩ := decStep_eq_stateClamp h
  rfl

theorem InStep.holdHigh (h : InStep n s s') (b : Byte) : InStep n (holdHigh b s) (holdHigh b s') := { h with }

theorem InStep.releaseHigh (h : InStep n s s') : InStep n (releaseHigh s) (releaseHigh s') := { h with }

theorem InStep.decStep {c : Code} {y y' : Byte} (h : InStep n s s') (ht : decStep c s = some (y, t))
    (ht' : decStep c s' = some (y', t')) : y = y' ∧ InStep n t t' := by
  obtain ⟨hy, d, rfl, rfl⟩ := decStep_congr h.pred h.sidx ht ht'
  exact ⟨hy, h.stateClamp c d⟩

/-- One pass of DEC in step: the two unpackers hold the high code of the same byte (R76). -/
theorem InStep.decIteration (h : InStep n s s') (hi : s.idxI < n) (ht : decIteration s = some t)
    (ht' : decIteration s' = some t') : InStep n t t' := by
  obtain ⟨y₁, t₁, y₂, t₂, h₁, h₂, rfl⟩ := decIteration_some ht
  obtain ⟨y₁', t₁', y₂', t₂', h₁', h₂', rfl⟩ := decIteration_some ht'
  rw [← h.readIn_eq hi] at h₁'
  rw [decStep_upHi h₁, holdHigh_upHi] at h₂
  rw [decStep_upHi h₁', holdHigh_upHi] at h₂'
  obtain ⟨rfl, hlow⟩ := (h.advanceIn.holdHigh (readIn s.idxI s)).decStep h₁ h₁'
  obtain ⟨rfl, hhigh⟩ := (hlow.emitByte y₁).releaseHigh.decStep h₂ h₂'
  exact hhigh.emitByte y₂

theorem InStep.decLoop (h : InStep n s s') (hi : s.idxI + k ≤ n) (ht : decLoop k s = some t)
    (ht' : decLoop k s' = some t') : InStep n t t' := by
  induction k generalizing s s' with
  | zero => cases ht; cases ht'; exact h
  | succ k ih =>
    obtain ⟨u, hu, hloop⟩ := Option.bind_eq_some_iff.mp ht
    obtain ⟨u', hu', hloop'⟩ := Option.bind_eq_some_iff.mp ht'
    have hidxI := decIteration_idxI hu
    exact ih (h.decIteration (by omega) hu hu') (by omega) hloop hloop'

theorem execDec_inStep (hn : 0 < n) (hwf : s.outMem.wf = true) (hwf' : s'.outMem.wf = true)
    (hin : ∀ a < n, Memory.read s.inMem a = Memory.read s'.inMem a) (h : execDec n s = .next t)
    (h' : execDec n s' = .next t') : InStep n t t' := by
  obtain ⟨u, hu, rfl⟩ := execDec_pos_next hn h
  obtain ⟨u', hu', rfl⟩ := execDec_pos_next hn h'
  have hstart : InStep n (seedFromBuffer (beginDec n (accept s))) (seedFromBuffer (beginDec n (accept s'))) :=
    seedFromBuffer_inStep hn rfl rfl rfl hin hwf hwf'
  have hread : (seedFromBuffer (beginDec n (accept s))).idxI = 1 := rfl
  exact { hstart.decLoop (by omega) hu hu' with }

end

/-- Settles O35: the runs of ENC and DEC end in step with IDX_O at the length; a sample step and a seed write values
that PRED, SIDX and the operand fix. -/
theorem resultsDependOnInputsOnly : Obligations.ResultsDependOnInputsOnly := by
  refine ⟨?_, ?_, fun _ _ _ _ _ => execEncs_congr, fun _ _ _ _ _ => decodeCommand_congr, ?_⟩
  · intro s s' t t' n hn hwf hwf' hin h h'
    have hend := execEnc_inStep hn hwf hwf' hin h h'
    refine ⟨(execEnc_res h).trans (execEnc_res h').symm, hend.pred, hend.sidx, hend.initd, ?_⟩
    rw [← execEnc_idxO hn h]
    exact hend.output
  · intro s s' t t' n hn hwf hwf' hin h h'
    have hend := execDec_inStep hn hwf hwf' hin h h'
    refine ⟨(execDec_res h).trans (execDec_res h').symm, hend.pred, hend.sidx, hend.initd, ?_⟩
    rw [← execDec_idxO hn h]
    exact hend.output
  · intro s s' t t' b h h'
    obtain ⟨-, rfl⟩ := execInit_next.mp h
    obtain ⟨-, rfl⟩ := execInit_next.mp h'
    exact ⟨rfl, rfl, rfl, rfl⟩

end Sys2Proof.Machine
end

/-! PROOFS. The reset event (R103). -/
section
namespace Sys2Proof.Machine

/-- R20: of the four fields of the state read port, PRED and SIDX need INITD = 1; INITD and BUSY are always readable. -/
theorem readField_eq_none_iff {f : StateField} {s : State} :
    readField f s = none ↔ s.initd = false ∧ (f = .pred ∨ f = .sidx) := by
  cases f <;> cases h : s.initd <;> simp [readField, h]

/-- A step whose next host transaction is reset takes the reset event, busy or idle. -/
theorem step_reset {s : State} {rest : List HostAct} (h : s.inbox = .reset :: rest) :
    step s = .next (coreReset { s with inbox := rest }) := by
  simp [step, h, hostAct]

/-- Settles O46: the step is the reset event, which keeps IN and OUT and takes every other field the statement names from
`State.reset`; with INITD = 0, PRED and SIDX are just the fields that cannot be read. -/
theorem resetEventLeavesSpecValues : Obligations.ResetEventLeavesSpecValues := by
  intro s rest hinbox
  have hread : ∀ f, readField f (coreReset { s with inbox := rest }) = none ↔ f = .pred ∨ f = .sidx :=
    fun _ => readField_eq_none_iff.trans (and_iff_right rfl)
  exact ⟨_, step_reset hinbox, rfl, rfl, rfl, rfl, rfl, rfl, rfl, rfl, rfl, hread⟩

end Sys2Proof.Machine
end

/-! PROOFS. Decoder and encoder as inverses (R46, R53): a word decodes to exactly the well-formed instruction that it
encodes. -/
section
namespace Sys2Proof.Machine

theorem encode_decodeCode : ∀ c : Code, encode (decodeCode c) = .code4 c := by decide

/-- A code is decoded to the row it encodes. -/
theorem decodeCode_eq_iff {c : Code} {i : Instr} : decodeCode c = i ↔ encode i = .code4 c := by
  refine ⟨fun h => h ▸ encode_decodeCode c, fun h => ?_⟩
  cases i <;> cases h <;> rfl

/-- A command whose operand is not too wide is decoded to the instruction that it encodes (R55). -/
theorem decodeCmd_eq_ok_iff {op : OpField} {arg : Nat} {i : Instr} :
    decodeCmd op arg = .ok i ↔ encode i = .cmd op arg := by
  constructor
  · intro h
    unfold decodeCmd at h
    split_ifs at h with hinit hbyte hencs hbyte hdecs hcode henc hdec <;> cases h
    · rw [encode, hinit, BitVec.toNat_ofNat, Nat.mod_eq_of_lt hbyte]
    · rw [encode, hencs, BitVec.toNat_ofNat, Nat.mod_eq_of_lt hbyte]
    · rw [encode, hdecs, BitVec.toNat_ofNat, Nat.mod_eq_of_lt hcode]
    · rw [encode, henc]
    · rw [encode, hdec]
  · intro h
    cases i
    case init b => cases h; simp [decodeCmd, b.isLt]
    case encs b => cases h; simp [decodeCmd, b.isLt]
    case decs c => cases h; simp [decodeCmd, c.isLt]
    case enc n => cases h; rfl
    case dec m => cases h; rfl
    all_goals cases h

/-- A command is well formed when the interface carries its argument (R53). -/
theorem wellFormed_iff_of_encode_cmd {lenW : Nat} {op : OpField} {arg : Nat} {i : Instr} (h : encode i = .cmd op arg) :
    i.wellFormed lenW = true ↔ arg < 2 ^ lenW := by
  cases i <;> cases h <;> exact decide_eq_true_iff

/-- A CODE4 row has no argument, so every interface carries it. -/
theorem wellFormed_of_encode_code4 {lenW : Nat} {c : Code} {i : Instr} (h : encode i = .code4 c) :
    i.wellFormed lenW = true := by
  cases i <;> cases h <;> rfl

theorem decode_cmd_eq_ok_iff {lenW : Nat} {op : OpField} {arg : Nat} {i : Instr} :
    decode lenW (.cmd op arg) = .ok i ↔ decodeCmd op arg = .ok i ∧ arg < 2 ^ lenW := by
  rw [decode]
  cases decodeCmd op arg with
  | error e => simp
  | ok j => by_cases harg : arg < 2 ^ lenW <;> simp [harg]

/-- All that decoding a word can answer when it answers an instruction. -/
theorem decode_eq_ok_iff {lenW : Nat} {w : CommandWord} {i : Instr} :
    decode lenW w = .ok i ↔ encode i = w ∧ i.wellFormed lenW = true := by
  cases w with
  | cmd op arg =>
    rw [decode_cmd_eq_ok_iff, decodeCmd_eq_ok_iff]
    exact and_congr_right fun h => (wellFormed_iff_of_encode_cmd h).symm
  | code4 c =>
    rw [decode, Except.ok.injEq, decodeCode_eq_iff]
    exact (and_iff_left_of_imp wellFormed_of_encode_code4).symm

/-- Settles O2: a well-formed instruction's own encoding is the word that decodes to it. -/
theorem decodeOfEncodeIsInstruction : Obligations.DecodeOfEncodeIsInstruction :=
  fun _ _ h => decode_eq_ok_iff.mpr ⟨rfl, h⟩

/-- Settles O3: the same equivalence, read from the word. -/
theorem decodedWordIsItsEncoding : Obligations.DecodedWordIsItsEncoding :=
  fun _ _ _ h => decode_eq_ok_iff.mp h

/-- Settles O5: the six words are the encodings of well-formed instructions. -/
theorem sampleWordsDecode : Obligations.SampleWordsDecode :=
  ⟨decodeOfEncodeIsInstruction 32 (.init 128) (by decide), decodeOfEncodeIsInstruction 32 (.encs 130) (by decide),
    decodeOfEncodeIsInstruction 32 (.decs 7) (by decide), decodeOfEncodeIsInstruction 32 (.enc 5) (by decide),
    decodeOfEncodeIsInstruction 32 (.dec 3) (by decide), decodeOfEncodeIsInstruction 32 .code13 rfl⟩

end Sys2Proof.Machine
end

/-! PROOFS. The invariant at reset and under every step, and what it excludes (R62). -/
section
namespace Sys2Proof.Machine

/-- Settles O51: a micro-step, a command run to completion, an accepted command, a host access and the reset event each
keep the invariant. -/
theorem stepKeepsInvariant : Obligations.StepKeepsInvariant :=
  fun _ _ => step_keeps_inv

/-- Settles O50: the reset event changes nothing right after reset, and it meets the invariant. -/
theorem resetMeetsInvariant : Obligations.ResetMeetsInvariant :=
  coreReset_inv (s := State.reset) rfl rfl

/-- Settles O47: the four registers whose reset value the spec gives. -/
theorem resetStateHasSpecValues : Obligations.ResetStateHasSpecValues :=
  ⟨rfl, rfl, rfl, rfl⟩

/-! ### No step faults -/

/-- Only a sample step addresses STEP_ROM, and one that may begin finds its word. -/
theorem microOp_isSome {m : Micro} {ms : List Micro} {L : Nat} {s : State}
    (hsound : sound L (knownOf s) (m :: ms) = true) : ∃ t, microOp m s = some t := by
  cases m
  case encSample b toPacker =>
    obtain ⟨-, -, hsidx⟩ := committed_of_canStep (canStep_of_sound_encSample hsound)
    obtain ⟨step, hstep⟩ := currentStep_isSome hsidx
    exact ⟨_, congrArg (Option.map _) hstep⟩
  case decSample c =>
    simp only [sound, Bool.and_eq_true] at hsound
    obtain ⟨-, -, hsidx⟩ := committed_of_canStep hsound.1
    obtain ⟨step, hstep⟩ := currentStep_isSome hsidx
    exact ⟨_, congrArg (Option.map _) hstep⟩
  case encNext => simp only [microOp]; split <;> exact ⟨_, rfl⟩
  case decNext => simp only [microOp]; split <;> exact ⟨_, rfl⟩
  all_goals exact ⟨_, rfl⟩

theorem microStep_ne_fault {s : State} (hs : Inv s) (f : Fault) : microStep s ≠ .fault f := by
  cases htodo : s.todo with
  | nil => simp [microStep, htodo]
  | cons m rest =>
    cases hb : s.busy with
    | false =>
      obtain ⟨-, hnone, -⟩ := (inv_iff_of_idle hb).mp hs
      simp [htodo] at hnone
    | true =>
      obtain ⟨-, -, hsound⟩ := (inv_iff_of_busy hb).mp hs
      rw [htodo] at hsound
      obtain ⟨t, ht⟩ := microOp_isSome (s := { s with todo := rest }) hsound
      simp [microStep, htodo, ht]

/-- A transaction faults only where its body has no answer. -/
theorem transact_ne_fault {why : Option Refusal} {body : State → Option (Nat × State)} {s : State}
    (h : why = none → ∃ r, body (accept s) = some r) (f : Fault) : transact why body s ≠ .fault f := by
  cases why with
  | some r => simp [transact]
  | none =>
    obtain ⟨r, hr⟩ := h rfl
    simp [transact, hr]

theorem encIteration_isSome {s : State} (h : SidxCommitted s) : ∃ t, encIteration s = some t := by
  obtain ⟨r, hr⟩ := encStep_isSome (readIn s.idxI s) (s := advanceIn s) h
  exact ⟨_, congrArg (Option.map _) hr⟩

theorem encIteration_sidxCommitted {s t : State} (h : encIteration s = some t) : SidxCommitted t := by
  obtain ⟨⟨c, u⟩, hu, rfl⟩ := Option.map_eq_some_iff.mp h
  obtain ⟨-, -, -, -, -, hsidx⟩ := encStep_some hu
  rwa [SidxCommitted, pack_sidx]

theorem decIteration_sidxCommitted {s t : State} (h : decIteration s = some t) : SidxCommitted t := by
  obtain ⟨y₁, t₁, y₂, t₂, -, h₂, rfl⟩ := decIteration_some h
  obtain ⟨-, -, -, -, -, hsidx⟩ := decStep_some h₂
  exact hsidx

/-- From a committed SIDX every pass finds its step word and commits SIDX again, so the loop runs through (R90). -/
theorem encLoop_isSome (k : Nat) {s : State} (h : SidxCommitted s) : ∃ t, encLoop k s = some t := by
  induction k generalizing s with
  | zero => exact ⟨s, rfl⟩
  | succ k ih =>
    obtain ⟨u, hu⟩ := encIteration_isSome h
    obtain ⟨t, ht⟩ := ih (encIteration_sidxCommitted hu)
    exact ⟨t, by rw [encLoop, hu, Option.bind_some, ht]⟩

theorem decLoop_isSome (k : Nat) {s : State} (h : SidxCommitted s) : ∃ t, decLoop k s = some t := by
  induction k generalizing s with
  | zero => exact ⟨s, rfl⟩
  | succ k ih =>
    obtain ⟨u, hu⟩ := decIteration_isSome h
    obtain ⟨t, ht⟩ := ih (decIteration_sidxCommitted hu)
    exact ⟨t, by rw [decLoop, hu, Option.bind_some, ht]⟩

/-- ENC has an answer in every state: its own seed commits what its loop needs. -/
theorem encBody_isSome (n : Nat) (s : State) : ∃ r, encBody n s = some r := by
  unfold encBody
  split
  · exact ⟨_, rfl⟩
  · obtain ⟨u, hu⟩ := encLoop_isSome (n - 1) (seedFromBuffer_committed (beginEnc n s)).2
    exact ⟨_, congrArg (Option.map _) hu⟩

theorem decBody_isSome (m : Nat) (s : State) : ∃ r, decBody m s = some r := by
  unfold decBody
  split
  · exact ⟨_, rfl⟩
  · obtain ⟨u, hu⟩ := decLoop_isSome (m - 1) (seedFromBuffer_committed (beginDec m s)).2
    exact ⟨_, congrArg (Option.map _) hu⟩

/-- A sample operation that is not refused starts from a committed SIDX, as the invariant says of an idle core. -/
theorem sidxCommitted_of_sampleRefusal {s : State} (hs : Inv s) (h : sampleRefusal s = none) : SidxCommitted s := by
  obtain ⟨hb, hi⟩ := sampleRefusal_none.mp h
  obtain ⟨-, -, -, -, -, hcommitted⟩ := (inv_iff_of_idle hb).mp hs
  exact (hcommitted hi).2

theorem execInit_ne_fault (b : Byte) (s : State) (f : Fault) : execInit b s ≠ .fault f := by
  rw [execInit]
  exact transact_ne_fault (fun _ => ⟨_, rfl⟩) f

theorem execEncs_ne_fault (b : Byte) {s : State} (hs : Inv s) (f : Fault) : execEncs b s ≠ .fault f := by
  refine transact_ne_fault (fun h => ?_) f
  have hsidx := sidxCommitted_of_sampleRefusal hs h
  obtain ⟨r, hr⟩ := encStep_isSome b (s := accept s) hsidx
  exact ⟨_, congrArg (Option.map _) hr⟩

theorem decodeCommand_ne_fault (c : Code) {s : State} (hs : Inv s) (f : Fault) : decodeCommand c s ≠ .fault f := by
  refine transact_ne_fault (fun h => ?_) f
  have hsidx := sidxCommitted_of_sampleRefusal hs h
  obtain ⟨r, hr⟩ := decStep_isSome c (s := accept s) hsidx
  exact ⟨_, congrArg (Option.map _) hr⟩

/-- No command faults where the invariant holds; the CODE4 rows are one case, as in `exec_keeps_inv`. -/
theorem exec_ne_fault (i : Instr) {s : State} (hs : Inv s) (f : Fault) : exec i s ≠ .fault f := by
  cases i
  case init b => exact execInit_ne_fault b s f
  case encs b => exact execEncs_ne_fault b hs f
  case enc n => exact transact_ne_fault (fun _ => encBody_isSome n _) f
  case dec m => exact transact_ne_fault (fun _ => decBody_isSome m _) f
  all_goals exact decodeCommand_ne_fault _ hs f

theorem hostAct_ne_fault (a : HostAct) {s : State} (hs : Inv s) (f : Fault) : hostAct a s ≠ .fault f := by
  cases a with
  | run l w =>
    simp only [hostAct, runCommand]
    split
    · simp
    · exact exec_ne_fault _ (s := { s with launch := l }) hs f
  | start l w =>
    simp only [hostAct, startCommand, beginCommand]
    split
    · simp
    · split <;> simp
  | core => exact microStep_ne_fault hs f
  | readState g => simp only [hostAct, hostRead]; split <;> simp
  | writeIn i b => simp only [hostAct, hostWriteIn]; split <;> simp
  | readOut j => simp [hostAct, hostReadOut]
  | reset => simp [hostAct]

/-- Settles O52: a sample step begins only where SIDX is committed, as a micro-step or within a command. -/
theorem stepNeverFaults : Obligations.StepNeverFaults := by
  intro s hs f
  obtain ⟨-, hstep⟩ | ⟨a, rest, -, hstep⟩ := step_cases s <;> rw [hstep]
  · exact microStep_ne_fault hs f
  · exact hostAct_ne_fault a (s := { s with inbox := rest }) hs f

end Sys2Proof.Machine
end

/-! PROOFS. The launch (R102): a meaning is refused exactly as its launch check says, waited for or not. -/
section
namespace Sys2Proof.Machine

theorem transact_refused_iff {why : Option Refusal} {body : State → Option (Nat × State)} {s : State} {r : Refusal} :
    transact why body s = .refused r ↔ why = some r := by
  unfold transact
  cases why with
  | some q => simp
  | none => cases body (accept s) <;> simp

theorem execInit_refused_iff {b : Byte} {s : State} {r : Refusal} :
    execInit b s = .refused r ↔ idleRefusal s = some r := transact_refused_iff

theorem execEncs_refused_iff {b : Byte} {s : State} {r : Refusal} :
    execEncs b s = .refused r ↔ sampleRefusal s = some r := transact_refused_iff

theorem decodeCommand_refused_iff {c : Code} {s : State} {r : Refusal} :
    decodeCommand c s = .refused r ↔ sampleRefusal s = some r := transact_refused_iff

/-- Every meaning is one transaction, and the check it makes is its launch check. -/
theorem exec_refused_iff {i : Instr} {s : State} {r : Refusal} :
    exec i s = .refused r ↔ launchRefusal i s = some r := by
  cases i
  case init b => exact execInit_refused_iff
  case encs b => exact execEncs_refused_iff
  case enc n => exact transact_refused_iff
  case dec m => exact transact_refused_iff
  all_goals exact decodeCommand_refused_iff

theorem beginCommand_refused_iff {i : Instr} {s : State} {r : Refusal} :
    beginCommand i s = .refused r ↔ launchRefusal i s = some r := by
  unfold beginCommand
  cases launchRefusal i s <;> simp

/-- Settles O8: both make the same launch check. -/
theorem startRefusedAsRunIs : Obligations.StartRefusedAsRunIs :=
  fun _ _ _ => beginCommand_refused_iff.trans exec_refused_iff.symm

/-! ### A presented word -/

/-- The launch check does not look at the host's coming acts. -/
theorem launchRefusal_inbox (i : Instr) (s : State) (rest : List HostAct) :
    launchRefusal i { s with inbox := rest } = launchRefusal i s := by
  cases i <;> rfl

/-- A step at which the host acts is that act. -/
theorem step_hostAct {s : State} {a : HostAct} {rest : List HostAct} (h : s.inbox = a :: rest) :
    step s = hostAct a { s with inbox := rest } := by
  simp [step, h]

/-- The host presents a word, and waits for the result or does not. -/
abbrev Presents (s : State) (l : Launch) (w : CommandWord) (rest : List HostAct) : Prop :=
  s.inbox = .run l w :: rest ∨ s.inbox = .start l w :: rest

/-- A word that does not decode is refused for that reason, whatever the state. -/
theorem step_refused_of_decode_error {s : State} {l : Launch} {w : CommandWord} {rest : List HostAct} {e : DecodeError}
    (hpresent : Presents s l w rest) (h : decode s.lenW w = .error e) : step s = .refused (rejected e) := by
  obtain hrun | hstart := hpresent
  · rw [step_hostAct hrun]; simp [hostAct, runCommand, h]
  · rw [step_hostAct hstart]; simp [hostAct, startCommand, h]

/-- A word that decodes is refused as the launch check says. -/
theorem step_refused_of_launchRefusal {s : State} {l : Launch} {w : CommandWord} {rest : List HostAct} {i : Instr}
    {r : Refusal} (hpresent : Presents s l w rest) (h : decode s.lenW w = .ok i)
    (hrefused : launchRefusal i { s with launch := l } = some r) : step s = .refused r := by
  rw [← launchRefusal_inbox i _ rest] at hrefused
  obtain hrun | hstart := hpresent
  · rw [step_hostAct hrun]
    simpa [hostAct, runCommand, h] using exec_refused_iff.mpr hrefused
  · rw [step_hostAct hstart]
    simpa [hostAct, startCommand, h] using beginCommand_refused_iff.mpr hrefused

theorem launchRefusal_of_busy (i : Instr) {s : State} (hb : s.busy = true) :
    launchRefusal i s = some .commandWhileBusy := by
  cases i <;> exact if_pos hb

/-- Settles O9: a word that decodes meets BUSY = 1 first of its launch checks. -/
theorem commandWhileBusyIsRefused : Obligations.CommandWhileBusyIsRefused := by
  intro s l w rest hb hpresent
  have hbusy : ∀ i, decode s.lenW w = .ok i → step s = .refused .commandWhileBusy :=
    fun i hi => step_refused_of_launchRefusal hpresent hi (launchRefusal_of_busy i hb)
  refine ⟨?_, hbusy⟩
  cases hw : decode s.lenW w with
  | error e => exact ⟨_, step_refused_of_decode_error hpresent hw⟩
  | ok i => exact ⟨_, hbusy i hw⟩

theorem decode_error_of_decodeCmd {op : OpField} {arg : Nat} {e : DecodeError} (lenW : Nat)
    (h : decodeCmd op arg = .error e) : decode lenW (.cmd op arg) = .error e := by
  rw [decode, h]

/-- R55 (d): the operand of INIT and ENCS has 8 bits. -/
theorem decodeCmd_sample_tooWide {op : OpField} {arg : Nat} (hop : op.toNat ≤ 1) (harg : 255 < arg) :
    decodeCmd op arg = .error .operandTooWide := by
  have hcases : ∀ o : OpField, o.toNat ≤ 1 → o = 0b000#3 ∨ o = 0b001#3 := by decide
  obtain rfl | rfl := hcases op hop <;> exact if_neg (show ¬ arg < 256 by omega)

/-- R55 (d): the operand of DECS has 4 bits. -/
theorem decodeCmd_code_tooWide {op : OpField} {arg : Nat} (hop : op.toNat = 2) (harg : 15 < arg) :
    decodeCmd op arg = .error .operandTooWide := by
  obtain rfl : op = 0b010#3 := BitVec.eq_of_toNat_eq hop
  exact if_neg (show ¬ arg < 16 by omega)

/-- R53: the count of ENC and DEC has `LEN_W` bits. -/
theorem decode_count_tooWide {op : OpField} {lenW arg : Nat} (h3 : 3 ≤ op.toNat) (h4 : op.toNat ≤ 4)
    (harg : 2 ^ lenW ≤ arg) : decode lenW (.cmd op arg) = .error .argTooWide := by
  have hcases : ∀ o : OpField, 3 ≤ o.toNat → o.toNat ≤ 4 → o = 0b011#3 ∨ o = 0b100#3 := by decide
  obtain rfl | rfl := hcases op h3 h4 <;> exact if_neg harg.not_gt

/-- Settles O4: every code decodes, and each of the four kinds of word is rejected by the decoder. -/
theorem meaninglessCommandsAreRefused : Obligations.MeaninglessCommandsAreRefused := by
  refine ⟨fun lenW c => ⟨_, rfl⟩, fun s l op arg rest hpresent => ⟨fun h5 => ?_, fun h1 harg => ?_,
    fun h2 harg => ?_, fun h3 h4 harg => ?_⟩⟩
  · exact step_refused_of_decode_error hpresent (decode_reservedOp s.lenW h5 arg)
  · exact step_refused_of_decode_error hpresent (decode_error_of_decodeCmd _ (decodeCmd_sample_tooWide h1 harg))
  · exact step_refused_of_decode_error hpresent (decode_error_of_decodeCmd _ (decodeCmd_code_tooWide h2 harg))
  · exact step_refused_of_decode_error hpresent (decode_count_tooWide h3 h4 harg)

/-- Settles O6: the presented word's instruction is run, with the launch parameters in place. -/
theorem stepRunsDecodedInstruction : Obligations.StepRunsDecodedInstruction := by
  intro s l w rest i hinbox hi
  rw [step_hostAct hinbox]
  simp [hostAct, runCommand, hi]

theorem microProgram_ne_nil (i : Instr) : microProgram i ≠ [] := by
  cases i
  case enc n => rw [microProgram]; split <;> exact List.cons_ne_nil _ _
  case dec m => rw [microProgram]; split <;> exact List.cons_ne_nil _ _
  all_goals exact List.cons_ne_nil _ _

theorem beginCommand_accepted {i : Instr} {s : State} (h : launchRefusal i s = none) :
    beginCommand i s = .next { accept s with cmd := some i, todo := microProgram i } := by
  rw [beginCommand, h]

/-- Settles O7: the accepted command is held with its program, which has a first micro-step. -/
theorem startedCommandIsHeld : Obligations.StartedCommandIsHeld := by
  intro s l w rest i hinbox hi hlaunch
  rw [← launchRefusal_inbox i _ rest] at hlaunch
  refine ⟨microProgram i, microProgram_ne_nil i, ?_⟩
  rw [step_hostAct hinbox]
  simpa [hostAct, startCommand, hi, accept] using beginCommand_accepted hlaunch

/-! ### The launch of a buffer operation -/

section
variable {n len : Nat} {s : State} (hb : s.busy = false)
include hb

theorem bufferRefusal_argTooWide (hn : 2 ^ s.lenW ≤ n) : bufferRefusal n len s = some .argTooWide := by
  simp [bufferRefusal, hb, hn]

theorem bufferRefusal_outputCapacity (hn : n < 2 ^ s.lenW) (hcap : s.launch.outCap < len) :
    bufferRefusal n len s = some .outputCapacity := by
  simp [bufferRefusal, hb, hn.not_ge, hcap]

theorem bufferRefusal_buffersOverlap (hn : n < 2 ^ s.lenW) (hcap : len ≤ s.launch.outCap)
    (hover : overlapping n s.launch = true) : bufferRefusal n len s = some .buffersOverlap := by
  simp [bufferRefusal, hb, hn.not_ge, hcap.not_gt, hover]

end

/-- Two ranges of addresses overlap when they share one: the greater of their two bases (R37). -/
theorem overlapping_iff {n : Nat} {l : Launch} :
    overlapping n l = true ↔ ∃ i o, l.binding = .oneMemory i o ∧ ∃ a, i ≤ a ∧ a < i + n ∧ o ≤ a ∧ a < o + l.outCap := by
  cases hl : l.binding with
  | separate => simp [overlapping, hl]
  | oneMemory i o =>
    simp only [overlapping, hl, Bool.and_eq_true, decide_eq_true_eq]
    constructor
    · rintro ⟨⟨⟨hn, hcap⟩, hio⟩, hoi⟩
      exact ⟨i, o, rfl, max i o, by omega⟩
    · rintro ⟨i', o', heq, a, ha⟩
      cases heq
      omega

/-- Settles O32: the launch checks of ENC and DEC in their order, and the overlap as a shared address. -/
theorem badBufferLaunchIsRefused : Obligations.BadBufferLaunchIsRefused := by
  refine fun s n hb => ⟨fun hn => ⟨?_, ?_⟩, fun hn hcap => ?_, fun hn hcap => ?_, fun hn hcap hover => ?_,
    fun hn hcap hover => ?_, overlapping_iff⟩ <;> apply exec_refused_iff.mpr
  · exact bufferRefusal_argTooWide hb hn
  · exact bufferRefusal_argTooWide hb hn
  · exact bufferRefusal_outputCapacity hb hn hcap
  · exact bufferRefusal_outputCapacity hb hn hcap
  · exact bufferRefusal_buffersOverlap hb hn hcap hover
  · exact bufferRefusal_buffersOverlap hb hn hcap hover

end Sys2Proof.Machine
end

/-! PROOFS. The packer (R74), the CODE4 rows (R46, R69) and the small steps (R70). -/
section
namespace Sys2Proof.Machine

/-- The earlier code is the low nibble (R49). -/
theorem packedByte_eq_add : ∀ lo hi : Code, (packedByte lo hi).toNat = lo.toNat + 16 * hi.toNat := by decide

/-- Settles O13: an empty packer holds the code, a full one writes the packed byte. -/
theorem packerWritesCompleteBytes : Obligations.PackerWritesCompleteBytes :=
  fun s c => ⟨fun h => ⟨pack_first c h, packFlush_empty h⟩,
    fun h => ⟨packedByte s.pkLo c, packedByte s.pkLo 0, packedByte_eq_add s.pkLo c, packedByte_eq_add s.pkLo 0,
      pack_second c h, packFlush_held h⟩⟩

/-- Each CODE4 row is the decoder step of its own code (R69). -/
theorem exec_codeRow {r : CodeRow} (hr : r ∈ codeRowTable) (s : State) : exec r.instr s = decodeCommand r.code s := by
  simp only [codeRowTable, List.mem_cons, List.not_mem_nil, or_false] at hr
  rcases hr with rfl | rfl | rfl | rfl | rfl | rfl | rfl | rfl | rfl | rfl | rfl | rfl | rfl | rfl | rfl | rfl <;> rfl

/-- Settles O17: the decoder step of the row's code, whose bits and index delta are the row's. -/
theorem codeRowsDecodeTheirCode : Obligations.CodeRowsDecodeTheirCode := by
  intro r hr s hb
  rw [exec_codeRow hr]
  refine ⟨fun hi hc => ?_, fun hi => decodeCommand_uninitialised r.code hb hi⟩
  obtain ⟨step, hstep⟩ := stepRom_isSome hc.2.1 hc.2.2
  have hexec := decodeCommand_eq_sampleResult r.code hb hi hc hstep
  obtain ⟨hs, h2, h1, h0⟩ := r.code_bits
  rw [hs, h2, h1, h0, idxRom_codeRow r hr] at hexec
  exact ⟨step, hstep, hexec⟩

/-! ### Small steps -/

/-- At SIDX 0 to 3 the step is 1 (R58). -/
theorem stepRom_eq_one {i : Int} {step : Nat} (hi : i ≤ 3) (h : stepRom i = some step) : step = 1 := by
  have hle : step ≤ 1 := stepRom_mono hi h rfl
  obtain ⟨-, -, hge, -⟩ := stepRom_eq_some h
  omega

/-- Up to SIDX 8 a quarter of the step is 0 (R58). -/
theorem stepRom_quarter_eq_zero {i : Int} {step : Nat} (hi : i ≤ 8) (h : stepRom i = some step) : step / 4 = 0 := by
  have hle : step ≤ 3 := stepRom_mono hi h rfl
  omega

/-- A compare with a quarter step of 0 is always met (R70). -/
theorem quantise_m0_forced (p : Int) {step : Nat} (b : Byte) (h : step / 4 = 0) :
    (quantise p step b).code.getLsbD 0 = true := by
  rw [quantise_m0, h]
  exact decide_eq_true (Nat.zero_le _)

/-- The addend of bit 0 is then 0, so the forced bit adds nothing to DELTA (R65, R70). -/
theorem deltaOf_forced {step : Nat} (m2 m1 : Bool) (h : step / 4 = 0) :
    deltaOf step m2 m1 true = deltaOf step m2 m1 false := by
  simp [deltaOf, addend, h]

/-- With a step of 1 only the sign and bit 2 are free, and bit 2 tells a difference from none (R70). -/
theorem quantise_of_step_one (p : Int) (b : Byte) :
    (quantise p 1 b).code =
      if (b.toNat : Int) = p then 3 else if p < b.toNat then 7 else 15 := by
  have hs := quantise_sign p 1 b
  have h2 := quantise_m2 p 1 b
  have h1 : (quantise p 1 b).code.getLsbD 1 = true := by
    rw [quantise_m1]
    exact decide_eq_true (Nat.zero_le _)
  have h0 := quantise_m0_forced p (step := 1) b rfl
  split_ifs with heq hlt
  · rw [decide_eq_false (by omega)] at hs h2
    exact code_eq_of_bits _ 3 hs h2 h1 h0
  · rw [decide_eq_false (by omega)] at hs
    rw [decide_eq_true (by omega)] at h2
    exact code_eq_of_bits _ 7 hs h2 h1 h0
  · rw [decide_eq_true (by omega)] at hs h2
    exact code_eq_of_bits _ 15 hs h2 h1 h0

/-- Settles O21: at step 1 the three codes move PRED by DELTA 0 or 1, which stays in range on the side of the sample;
with a quarter step of 0 bit 0 is forced and adds nothing. -/
theorem zeroStepForcesBits : Obligations.ZeroStepForcesBits := by
  intro s t b hc h
  obtain ⟨step, c, -, -, hstep, hcode, rfl⟩ := execEncs_committed hc h
  obtain ⟨⟨hp0, hp255⟩, -⟩ := hc
  have hbyte := b.isLt
  refine ⟨fun hi => ?_, fun hi => ?_⟩
  · obtain rfl := stepRom_eq_one hi hstep
    rw [quantise_of_step_one] at hcode
    refine ⟨fun heq => ?_, fun hlt => ?_, fun hgt => ?_⟩
    · rw [if_pos heq] at hcode
      subst hcode
      refine ⟨rfl, BitVec.eq_of_toInt_eq ?_⟩
      rw [sampleResult_pred_toInt]
      exact (clampP_of_range (x := s.pred.toInt + 0) (by omega) (by omega)).trans (Int.add_zero _)
    · rw [if_neg hlt.ne', if_pos hlt] at hcode
      subst hcode
      refine ⟨rfl, ?_⟩
      rw [sampleResult_pred_toInt]
      exact clampP_of_range (x := s.pred.toInt + 1) (by omega) (by omega)
    · rw [if_neg hgt.ne, if_neg hgt.not_gt] at hcode
      subst hcode
      refine ⟨rfl, ?_⟩
      rw [sampleResult_pred_toInt]
      exact clampP_of_range (x := s.pred.toInt - 1) (by omega) (by omega)
  · have hquarter := stepRom_quarter_eq_zero hi hstep
    have hforced : c.getLsbD 0 = true := hcode ▸ quantise_m0_forced _ b hquarter
    refine ⟨c, step, rfl, hforced, hstep, hquarter, ?_⟩
    rw [sampleResult_pred_toInt, hforced, deltaOf_forced _ _ hquarter]

end Sys2Proof.Machine
end

/-! PROOFS. The host's accesses (R20, R42, R108), and what a micro-step does to the two byte spaces (R39, R42). -/
section
namespace Sys2Proof.Machine

/-- A field that can be read shows its register. -/
theorem readField_eq_fieldValue {f : StateField} {s : State} (h : s.initd = true ∨ f = .initd ∨ f = .busy) :
    readField f s = some (fieldValue f s) := by
  cases f
  case initd => rfl
  case busy => rfl
  all_goals exact if_pos (h.resolve_right (by simp))

/-- Settles O44: the port answers a readable field's register, and has no answer for PRED and SIDX with INITD = 0. -/
theorem stateReadReturnsRegister : Obligations.StateReadReturnsRegister := by
  intro s f rest hinbox
  rw [step_hostAct hinbox]
  refine ⟨fun h => ?_, fun hi hf => ?_⟩
  · have hread : readField f { s with inbox := rest } = some (fieldValue f s) :=
      readField_eq_fieldValue (s := { s with inbox := rest }) h
    simp [hostAct, hostRead, hread]
  · have hnone : readField f { s with inbox := rest } = none := readField_eq_none_iff.mpr ⟨hi, hf⟩
    simp [hostAct, hostRead, hnone]

/-- The bytes that the operation in progress reads are those of the ENC or DEC held. -/
theorem lt_inputCount_iff {i : Nat} {s : State} :
    i < inputCount s ↔ ∃ n, (s.cmd = some (.enc n) ∨ s.cmd = some (.dec n)) ∧ i < n := by
  unfold inputCount
  split
  · next n hcmd => simp [hcmd]
  · next m hcmd => simp [hcmd]
  · next henc hdec =>
    simp only [Nat.not_lt_zero, false_iff]
    rintro ⟨n, h | h, -⟩
    · exact henc n h
    · exact hdec n h

/-- Settles O45: the write is refused exactly when it changes a byte below the count of the ENC or DEC held. -/
theorem inputMustStayStable : Obligations.InputMustStayStable := by
  intro s i b rest hinbox
  rw [step_hostAct hinbox]
  refine ⟨fun n hcmd hi hb => ?_, fun hfree => ?_⟩
  · have hcount : i < inputCount { s with inbox := rest } := lt_inputCount_iff.mpr ⟨n, hcmd, hi⟩
    exact if_pos ⟨hcount, hb⟩
  · refine if_neg ?_
    rintro ⟨hcount, hb⟩
    obtain ⟨n, hcmd, hi⟩ := lt_inputCount_iff.mp hcount
    exact (hfree n hcmd).elim hi.not_ge hb

/-! ### One micro-step and the byte spaces -/

/-- All a micro-step can do to the byte spaces: IN stays; OUT stays too, or is written at IDX_O, as the access of the
micro-step says. -/
def TouchesAsAccessed (access : Option Access) (s t : State) : Prop :=
  t.inMem = s.inMem ∧
    ((access = some (.writeOut s.idxO) ∧ t.idxO = s.idxO + 1 ∧ ∃ b, t.outMem = Memory.write s.outMem s.idxO b) ∨
      ((∀ j, access ≠ some (.writeOut j)) ∧ t.outMem = s.outMem))

theorem microOp_touchesAsAccessed {m : Micro} {s t : State} (h : microOp m s = some t) :
    TouchesAsAccessed (microAccess m s) s t := by
  cases m
  case encSample b toPacker =>
    obtain ⟨step, -, rfl⟩ := Option.map_eq_some_iff.mp h
    exact ⟨rfl, .inr ⟨nofun, rfl⟩⟩
  case decSample c =>
    obtain ⟨step, -, rfl⟩ := Option.map_eq_some_iff.mp h
    exact ⟨rfl, .inr ⟨nofun, rfl⟩⟩
  case emit b => cases h; exact ⟨rfl, .inl ⟨rfl, rfl, b, rfl⟩⟩
  case emitPred => cases h; exact ⟨rfl, .inl ⟨rfl, rfl, _, rfl⟩⟩
  case pack c =>
    cases h
    cases hp : s.pkPh with
    | false => rw [pack_first c hp]; exact ⟨rfl, .inr ⟨by simp [microAccess, hp], rfl⟩⟩
    | true => rw [pack_second c hp]; exact ⟨rfl, .inl ⟨if_pos hp, rfl, _, rfl⟩⟩
  case packFlush =>
    cases h
    cases hp : s.pkPh with
    | false => rw [packFlush_empty hp]; exact ⟨rfl, .inr ⟨by simp [microAccess, hp], rfl⟩⟩
    | true => rw [packFlush_held hp]; exact ⟨rfl, .inl ⟨if_pos hp, rfl, _, rfl⟩⟩
  case encNext =>
    simp only [microOp, microAccess] at h ⊢
    split at h <;> cases h <;> rename_i hi
    · exact ⟨rfl, .inr ⟨by simp [hi], rfl⟩⟩
    · exact ⟨rfl, .inr ⟨by simp [hi], rfl⟩⟩
  case decNext =>
    simp only [microOp, microAccess] at h ⊢
    split at h <;> cases h <;> rename_i hi
    · exact ⟨rfl, .inr ⟨by simp [hi], rfl⟩⟩
    · exact ⟨rfl, .inr ⟨by simp [hi], rfl⟩⟩
  all_goals cases h; exact ⟨rfl, .inr ⟨nofun, rfl⟩⟩

theorem nextAccess_of_todo {m : Micro} {rest : List Micro} {s : State} (h : s.todo = m :: rest) :
    nextAccess s = microAccess m s := by
  rw [nextAccess, h]

theorem microAccess_todo (m : Micro) (ms : List Micro) (s : State) :
    microAccess m { s with todo := ms } = microAccess m s := by cases m <;> rfl

theorem microStep_touchesAsAccessed {s t : State} (h : microStep s = .next t) :
    TouchesAsAccessed (nextAccess s) s t := by
  obtain ⟨hnil, rfl⟩ | ⟨m, rest, htodo, hop⟩ := microStep_next h
  · exact ⟨rfl, .inr ⟨by simp [nextAccess, hnil], rfl⟩⟩
  · have htouch := microOp_touchesAsAccessed hop
    rw [microAccess_todo] at htouch
    rw [nextAccess_of_todo htodo]
    exact htouch

/-- Settles O43: a write access is the write at IDX_O, and without one OUT stays. -/
theorem microStepWritesAtMostOneByte : Obligations.MicroStepWritesAtMostOneByte := by
  intro s t h
  obtain ⟨hin, ⟨haccess, hidx, hwrite⟩ | ⟨hnone, hout⟩⟩ := microStep_touchesAsAccessed h
  · refine ⟨hin, fun j hj => ?_, fun hno => absurd haccess (hno _)⟩
    obtain rfl : s.idxO = j := by simpa using haccess.symm.trans hj
    exact ⟨rfl, hidx, hwrite⟩
  · exact ⟨hin, fun j hj => absurd hj (hnone j), fun _ => hout⟩

/-- A micro-step leaves every byte of OUT but the one that it writes. -/
theorem microStep_read_other {s t : State} {j : Nat} (h : microStep s = .next t)
    (hj : nextAccess s ≠ some (.writeOut j)) : Memory.read t.outMem j = Memory.read s.outMem j := by
  obtain ⟨-, ⟨haccess, -, b, hwrite⟩ | ⟨-, hout⟩⟩ := microStep_touchesAsAccessed h
  · have hne : j ≠ s.idxO := by
      rintro rfl
      exact hj haccess
    rw [hwrite, read_write_other _ _ _ _ hne]
  · rw [hout]

/-- Settles O54: a read shows the byte held, which a micro-step that does not write it has left. -/
theorem outReadReturnsByte : Obligations.OutReadReturnsByte := by
  refine ⟨fun s j rest hinbox => step_hostAct hinbox, fun s u j rest h hj => ?_⟩
  rw [← microStep_read_other h hj]
  rfl

/-! ### An idle core -/

theorem microStep_of_todo_nil {s t : State} (h : s.todo = []) (hstep : microStep s = .next t) : t = s := by
  obtain ⟨-, rfl⟩ | ⟨m, rest, hcons, -⟩ := microStep_next hstep
  · rfl
  · simp [h] at hcons

/-- Settles O49: an idle core has no micro-step to perform, and no other host act reaches the state register. -/
theorem hostCannotWriteStateRegister : Obligations.HostCannotWriteStateRegister := by
  rintro s t h ⟨-, htodo, -⟩ hrun hreset
  obtain ⟨-, hstep⟩ | ⟨a, rest, hinbox, hstep⟩ := step_cases s <;> rw [hstep] at h
  · obtain rfl := microStep_of_todo_nil htodo h
    exact ⟨rfl, rfl, rfl, rfl, rfl⟩
  · obtain ⟨l, w, i, rfl, -⟩ | ⟨l, w, i, -, -, -, rfl⟩ | ⟨-, hmicro⟩ | ⟨f, v, -, -, rfl⟩ | ⟨i, b, -, -, rfl⟩ |
      ⟨j, -, rfl⟩ | ⟨rfl, -⟩ := hostAct_next h
    · exact absurd hinbox (hrun l w rest)
    · exact ⟨rfl, rfl, rfl, rfl, rfl⟩
    · obtain rfl := microStep_of_todo_nil (s := { s with inbox := rest }) htodo hmicro
      exact ⟨rfl, rfl, rfl, rfl, rfl⟩
    · exact ⟨rfl, rfl, rfl, rfl, rfl⟩
    · exact ⟨rfl, rfl, rfl, rfl, rfl⟩
    · exact ⟨rfl, rfl, rfl, rfl, rfl⟩
    · exact absurd hinbox (hreset rest)

end Sys2Proof.Machine
end

/-! PROOFS. The frame of the buffer operations (R29, R73, R75): what no pass of a loop changes. With it, the completion
of ENC and DEC (R78) and what they leave unchanged. -/
section
namespace Sys2Proof.Machine

/-- What a stretch of a buffer operation's loop may change: PRED and SIDX, which stay committed, the packer, the
unpacker, the indices, and OUT from the old IDX_O up to the new one. -/
structure BufferFrame (s t : State) : Prop where
  fields : t = { s with
    pred := t.pred, sidx := t.sidx, pkLo := t.pkLo, pkPh := t.pkPh, upHi := t.upHi, upPh := t.upPh, idxI := t.idxI,
    idxO := t.idxO, outMem := t.outMem }
  idxO_le : s.idxO ≤ t.idxO
  beyond : ∀ a, t.idxO ≤ a → Memory.read t.outMem a = Memory.read s.outMem a
  committed : Committed s → Committed t

namespace BufferFrame

theorem refl (s : State) : BufferFrame s s := ⟨rfl, le_rfl, fun _ _ => rfl, id⟩

theorem trans {s t u : State} (h : BufferFrame s t) (h' : BufferFrame t u) : BufferFrame s u where
  fields := by
    have hu := h'.fields
    rw [h.fields] at hu
    exact hu
  idxO_le := h.idxO_le.trans h'.idxO_le
  beyond a ha := (h'.beyond a ha).trans (h.beyond a (h'.idxO_le.trans ha))
  committed := h'.committed ∘ h.committed

variable {s t : State} (h : BufferFrame s t)
include h

theorem initd : t.initd = s.initd := by rw [h.fields]

theorem cnt : t.cnt = s.cnt := by rw [h.fields]

theorem inMem : t.inMem = s.inMem := by rw [h.fields]

theorem cmd : t.cmd = s.cmd := by rw [h.fields]

theorem todo : t.todo = s.todo := by rw [h.fields]

end BufferFrame

theorem sampleStep_frame (c : Code) (d : Nat) (s : State) : BufferFrame s (stateClamp c (movePred c d s)) :=
  ⟨rfl, le_rfl, fun _ _ => rfl, fun _ => stateClamp_committed c _⟩

theorem advanceIn_frame (s : State) : BufferFrame s (advanceIn s) := ⟨rfl, le_rfl, fun _ _ => rfl, id⟩

theorem holdHigh_frame (b : Byte) (s : State) : BufferFrame s (holdHigh b s) := ⟨rfl, le_rfl, fun _ _ => rfl, id⟩

theorem releaseHigh_frame (s : State) : BufferFrame s (releaseHigh s) := ⟨rfl, le_rfl, fun _ _ => rfl, id⟩

theorem holdCode_frame (c : Code) (s : State) : BufferFrame s (holdCode c s) := ⟨rfl, le_rfl, fun _ _ => rfl, id⟩

theorem releasePack_frame (s : State) : BufferFrame s (releasePack s) := ⟨rfl, le_rfl, fun _ _ => rfl, id⟩

theorem emitByte_frame (b : Byte) (s : State) : BufferFrame s (emitByte b s) :=
  ⟨rfl, Nat.le_succ _, fun _ ha => read_write_other _ _ _ _ (Nat.ne_of_gt ha), id⟩

theorem pack_frame (c : Code) (s : State) : BufferFrame s (pack c s) := by
  cases hp : s.pkPh with
  | false => rw [pack_first c hp]; exact holdCode_frame c s
  | true => rw [pack_second c hp]; exact (emitByte_frame _ s).trans (releasePack_frame _)

theorem packFlush_frame (s : State) : BufferFrame s (packFlush s) := by
  cases hp : s.pkPh with
  | false => rw [packFlush_empty hp]; exact .refl s
  | true => rw [packFlush_held hp]; exact (emitByte_frame _ s).trans (releasePack_frame _)

theorem packFlush_pkPh (s : State) : (packFlush s).pkPh = false := by
  cases hp : s.pkPh with
  | false => rw [packFlush_empty hp, hp]
  | true => rw [packFlush_held hp]; rfl

theorem encStep_frame {b : Byte} {c : Code} {s t : State} (h : encStep b s = some (c, t)) : BufferFrame s t := by
  obtain ⟨d, -, rfl⟩ := encStep_eq_stateClamp h
  exact sampleStep_frame c d s

theorem decStep_frame {c : Code} {y : Byte} {s t : State} (h : decStep c s = some (y, t)) : BufferFrame s t := by
  obtain ⟨d, -, rfl⟩ := decStep_eq_stateClamp h
  exact sampleStep_frame c d s

/-! ### The loop of ENC -/

theorem encIteration_frame {s t : State} (h : encIteration s = some t) : BufferFrame s t := by
  obtain ⟨⟨c, u⟩, hu, rfl⟩ := Option.map_eq_some_iff.mp h
  exact ((advanceIn_frame s).trans (encStep_frame hu)).trans (pack_frame c u)

/-- ENC does not use the unpacker (R73). -/
theorem encIteration_unpacker {s t : State} (h : encIteration s = some t) : t.upHi = s.upHi ∧ t.upPh = s.upPh := by
  obtain ⟨⟨c, u⟩, hu, rfl⟩ := Option.map_eq_some_iff.mp h
  obtain ⟨d, -, rfl⟩ := encStep_eq_stateClamp hu
  unfold pack
  split <;> exact ⟨rfl, rfl⟩

@[simp] theorem packFlush_idxI (s : State) : (packFlush s).idxI = s.idxI := by unfold packFlush; split <;> rfl

theorem packFlush_unpacker (s : State) : (packFlush s).upHi = s.upHi ∧ (packFlush s).upPh = s.upPh := by
  unfold packFlush
  split <;> exact ⟨rfl, rfl⟩

theorem encLoop_frame {k : Nat} {s t : State} (h : encLoop k s = some t) :
    BufferFrame s t ∧ t.idxI = s.idxI + k ∧ t.upHi = s.upHi ∧ t.upPh = s.upPh := by
  induction k generalizing s with
  | zero => cases h; exact ⟨.refl _, rfl, rfl, rfl⟩
  | succ k ih =>
    obtain ⟨u, hu, hloop⟩ := Option.bind_eq_some_iff.mp h
    obtain ⟨hframe, hidx, hhi, hph⟩ := ih hloop
    obtain ⟨hhi', hph'⟩ := encIteration_unpacker hu
    refine ⟨(encIteration_frame hu).trans hframe, ?_, hhi.trans hhi', hph.trans hph'⟩
    rw [hidx, encIteration_idxI hu]
    omega

/-! ### The loop of DEC -/

theorem decIteration_frame {s t : State} (h : decIteration s = some t) : BufferFrame s t := by
  obtain ⟨y₁, t₁, y₂, t₂, h₁, h₂, rfl⟩ := decIteration_some h
  have hheld := (advanceIn_frame s).trans (holdHigh_frame (readIn s.idxI s) _)
  have hlow := (hheld.trans (decStep_frame h₁)).trans (emitByte_frame y₁ t₁)
  exact ((hlow.trans (releaseHigh_frame _)).trans (decStep_frame h₂)).trans (emitByte_frame y₂ t₂)

/-- DEC does not use the packer, and a pass delivers the held code (R75, R76). -/
theorem decIteration_packer {s t : State} (h : decIteration s = some t) :
    t.pkLo = s.pkLo ∧ t.pkPh = s.pkPh ∧ t.upPh = false := by
  obtain ⟨y₁, t₁, y₂, t₂, h₁, h₂, rfl⟩ := decIteration_some h
  obtain ⟨d₁, -, rfl⟩ := decStep_eq_stateClamp h₁
  obtain ⟨d₂, -, rfl⟩ := decStep_eq_stateClamp h₂
  exact ⟨rfl, rfl, rfl⟩

theorem decLoop_frame {k : Nat} {s t : State} (h : decLoop k s = some t) (hup : s.upPh = false) :
    BufferFrame s t ∧ t.idxI = s.idxI + k ∧ t.pkLo = s.pkLo ∧ t.pkPh = s.pkPh ∧ t.upPh = false := by
  induction k generalizing s with
  | zero => cases h; exact ⟨.refl _, rfl, rfl, rfl, hup⟩
  | succ k ih =>
    obtain ⟨u, hu, hloop⟩ := Option.bind_eq_some_iff.mp h
    obtain ⟨hlo', hph', hup'⟩ := decIteration_packer hu
    obtain ⟨hframe, hidx, hlo, hph, hend⟩ := ih hloop hup'
    refine ⟨(decIteration_frame hu).trans hframe, ?_, hlo.trans hlo', hph.trans hph', hend⟩
    rw [hidx, decIteration_idxI hu]
    omega

/-! ### The whole operations -/

/-- A launch that meets no situation of R102 completes: the body has an answer in every state. -/
theorem execEnc_isSome {n : Nat} {s : State} (h : Launchable n (encLength n) s) : ∃ t, execEnc n s = .next t := by
  obtain ⟨⟨r, u⟩, hu⟩ := encBody_isSome n (accept s)
  exact ⟨_, execEnc_next.mpr ⟨h, r, u, hu, rfl⟩⟩

theorem execDec_isSome {m : Nat} {s : State} (h : Launchable m (decLength m) s) : ∃ t, execDec m s = .next t := by
  obtain ⟨⟨r, u⟩, hu⟩ := decBody_isSome m (accept s)
  exact ⟨_, execDec_next.mpr ⟨h, r, u, hu, rfl⟩⟩

/-- All a completed ENC with a count of at least 1 has done to the state beside its output (R73, R78). -/
theorem execEnc_pos_frame {n : Nat} {s t : State} (hn : 0 < n) (h : execEnc n s = .next t) :
    ∃ u, BufferFrame (seedFromBuffer (beginEnc n (accept s))) u ∧ u.idxI = n ∧ u.upHi = s.upHi ∧ u.upPh = s.upPh ∧
      u.pkPh = false ∧ t = returnResult u.idxO u := by
  obtain ⟨v, hv, rfl⟩ := execEnc_pos_next hn h
  obtain ⟨hframe, hidx, hhi, hph⟩ := encLoop_frame hv
  obtain ⟨hhi', hph'⟩ := packFlush_unpacker v
  have hflush := packFlush_frame v
  refine ⟨packFlush v, hframe.trans hflush, ?_, hhi'.trans hhi, hph'.trans hph, packFlush_pkPh v, rfl⟩
  have hread : (seedFromBuffer (beginEnc n (accept s))).idxI = 1 := rfl
  rw [packFlush_idxI]
  omega

theorem execDec_pos_frame {m : Nat} {s t : State} (hm : 0 < m) (h : execDec m s = .next t) :
    ∃ u, BufferFrame (seedFromBuffer (beginDec m (accept s))) u ∧ u.idxI = m ∧ u.pkLo = s.pkLo ∧ u.pkPh = s.pkPh ∧
      u.upPh = false ∧ t = returnResult u.idxO u := by
  obtain ⟨v, hv, rfl⟩ := execDec_pos_next hm h
  obtain ⟨hframe, hidx, hlo, hph, hup⟩ := decLoop_frame hv rfl
  have hread : (seedFromBuffer (beginDec m (accept s))).idxI = 1 := rfl
  exact ⟨v, hframe, by omega, hlo, hph, hup, rfl⟩

/-- Settles O25: the seed commits the state and sets INITD, the loop keeps both, and PackFlush empties the packer. -/
theorem encCompletes : Obligations.EncCompletes := by
  intro s n hn hlaunch
  rw [← encLength_of_pos hn] at hlaunch ⊢
  obtain ⟨t, ht⟩ := execEnc_isSome hlaunch
  have hres := execEnc_res ht
  have hidx := execEnc_idxO hn ht
  have hlength : encLength n = 1 + n / 2 := if_neg hn.ne'
  refine ⟨t, ht, hidx ▸ hres, hidx, fun hodd => by omega, fun heven => by omega, ?_⟩
  obtain ⟨u, hframe, hidxI, -, -, hpk, rfl⟩ := execEnc_pos_frame hn ht
  exact ⟨hframe.cnt, hidxI, hpk, hframe.initd, hframe.committed (seedFromBuffer_committed _)⟩

/-- Settles O26: as O25; each pass of DEC delivers the code that it held. -/
theorem decCompletes : Obligations.DecCompletes := by
  intro s m hm hlaunch
  have hlength : 2 * m - 1 = decLength m := by rw [decLength_of_pos hm]; omega
  rw [hlength] at hlaunch ⊢
  obtain ⟨t, ht⟩ := execDec_isSome hlaunch
  have hres := execDec_res ht
  have hidx := execDec_idxO hm ht
  refine ⟨t, ht, hidx ▸ hres, hidx, ?_⟩
  obtain ⟨u, hframe, hidxI, -, -, hup, rfl⟩ := execDec_pos_frame hm ht
  exact ⟨hframe.cnt, hidxI, hup, hframe.initd, hframe.committed (seedFromBuffer_committed _)⟩

/-- OUT from the end of a buffer operation on is as it was before the launch: the seed's byte is written at 0. -/
theorem read_beyond_seedFromBuffer {s u : State} (hidx : s.idxO = 0) (h : BufferFrame (seedFromBuffer s) u) {a : Nat}
    (ha : u.idxO ≤ a) : Memory.read u.outMem a = Memory.read s.outMem a := by
  have hle := h.idxO_le
  have hone : (seedFromBuffer s).idxO = s.idxO + 1 := rfl
  rw [h.beyond a ha, seedFromBuffer_outMem, read_write_other _ _ _ _ (by omega)]

/-- Settles O27: a zero count changes the result alone; otherwise the opening, the loop and PackFlush have the frame. -/
theorem encLeavesRestUnchanged : Obligations.EncLeavesRestUnchanged := by
  intro s t n h
  obtain ⟨⟨hb, -⟩, -⟩ := execEnc_next.mp h
  obtain rfl | hn := Nat.eq_zero_or_pos n
  · obtain ⟨hzero, -⟩ := zeroCountIsNoOp.1 s hb
    rw [hzero] at h
    cases h
    exact ⟨rfl, fun _ _ => rfl⟩
  · have hlength := execEnc_idxO hn h
    obtain ⟨u, hframe, -, hhi, hph, -, rfl⟩ := execEnc_pos_frame hn h
    have hfields := congrArg (returnResult u.idxO) hframe.fields
    rw [hhi, hph] at hfields
    refine ⟨hfields.trans ?_, fun a ha => ?_⟩
    · simp [returnResult, seedFromBuffer, emitByte, seed, advanceIn, beginEnc, accept, hb, hframe.initd, hframe.cnt]
    · exact read_beyond_seedFromBuffer (s := beginEnc n (accept s)) rfl hframe (hlength ▸ ha)

/-- Settles O28: as O27, with the packer in the place of the unpacker. -/
theorem decLeavesRestUnchanged : Obligations.DecLeavesRestUnchanged := by
  intro s t m h
  obtain ⟨⟨hb, -⟩, -⟩ := execDec_next.mp h
  obtain rfl | hm := Nat.eq_zero_or_pos m
  · obtain ⟨-, hzero⟩ := zeroCountIsNoOp.1 s hb
    rw [hzero] at h
    cases h
    exact ⟨rfl, fun _ _ => rfl⟩
  · have hlength := execDec_idxO hm h
    obtain ⟨u, hframe, -, hlo, hph, -, rfl⟩ := execDec_pos_frame hm h
    have hfields := congrArg (returnResult u.idxO) hframe.fields
    rw [hlo, hph] at hfields
    refine ⟨hfields.trans ?_, fun a ha => ?_⟩
    · simp [returnResult, seedFromBuffer, emitByte, seed, advanceIn, beginDec, accept, hb, hframe.initd, hframe.cnt]
    · exact read_beyond_seedFromBuffer (s := beginDec m (accept s)) rfl hframe (hlength ▸ ha)

/-! ### INITD -/

theorem execEnc_keeps_initd {n : Nat} {s t : State} (hi : s.initd = true) (h : execEnc n s = .next t) :
    t.initd = true := by
  obtain rfl | hn := Nat.eq_zero_or_pos n
  · obtain ⟨-, r, u, hu, rfl⟩ := execEnc_next.mp h
    cases hu
    exact hi
  · obtain ⟨u, hframe, -, -, -, -, rfl⟩ := execEnc_pos_frame hn h
    exact hframe.initd

theorem execDec_keeps_initd {m : Nat} {s t : State} (hi : s.initd = true) (h : execDec m s = .next t) :
    t.initd = true := by
  obtain rfl | hm := Nat.eq_zero_or_pos m
  · obtain ⟨-, r, u, hu, rfl⟩ := execDec_next.mp h
    cases hu
    exact hi
  · obtain ⟨u, hframe, -, -, -, -, rfl⟩ := execDec_pos_frame hm h
    exact hframe.initd

theorem decodeCommand_keeps_initd {c : Code} {s t : State} (hi : s.initd = true) (h : decodeCommand c s = .next t) :
    t.initd = true := by
  obtain ⟨-, y, u, hu, rfl⟩ := decodeCommand_next.mp h
  exact (decStep_frame hu).initd.trans hi

theorem exec_keeps_initd {i : Instr} {s t : State} (hi : s.initd = true) (h : exec i s = .next t) :
    t.initd = true := by
  cases i
  case init b =>
    obtain ⟨-, rfl⟩ := execInit_next.mp h
    rfl
  case encs b =>
    obtain ⟨-, c, u, hu, rfl⟩ := execEncs_next.mp h
    exact (encStep_frame hu).initd.trans hi
  case enc n => exact execEnc_keeps_initd hi h
  case dec m => exact execDec_keeps_initd hi h
  all_goals exact decodeCommand_keeps_initd hi h

theorem microOp_keeps_initd {m : Micro} {s t : State} (hi : s.initd = true) (h : microOp m s = some t) :
    t.initd = true := by
  cases m
  case encSample b toPacker =>
    obtain ⟨step, -, rfl⟩ := Option.map_eq_some_iff.mp h
    exact hi
  case decSample c =>
    obtain ⟨step, -, rfl⟩ := Option.map_eq_some_iff.mp h
    exact hi
  case setInitd => cases h; rfl
  case pack c => cases h; exact (pack_frame c s).initd.trans hi
  case packFlush => cases h; exact (packFlush_frame s).initd.trans hi
  case encNext =>
    simp only [microOp] at h
    split at h <;> cases h <;> exact hi
  case decNext =>
    simp only [microOp] at h
    split at h <;> cases h <;> exact hi
  all_goals cases h; exact hi

theorem microStep_keeps_initd {s t : State} (hi : s.initd = true) (h : microStep s = .next t) : t.initd = true := by
  obtain ⟨-, rfl⟩ | ⟨m, rest, -, hop⟩ := microStep_next h
  · exact hi
  · exact microOp_keeps_initd (s := { s with todo := rest }) hi hop

/-- Settles O48: every command and every micro-step keeps INITD = 1, and of the host's other acts only reset reaches
it. -/
theorem onlyResetClearsInitd : Obligations.OnlyResetClearsInitd := by
  intro s t h hi hreset
  obtain ⟨-, hstep⟩ | ⟨a, rest, hinbox, hstep⟩ := step_cases s <;> rw [hstep] at h
  · exact microStep_keeps_initd hi h
  · obtain ⟨l, w, i, -, -, hexec⟩ | ⟨l, w, i, -, -, -, rfl⟩ | ⟨-, hmicro⟩ | ⟨f, v, -, -, rfl⟩ | ⟨i, b, -, -, rfl⟩ |
      ⟨j, -, rfl⟩ | ⟨rfl, -⟩ := hostAct_next h
    · exact exec_keeps_initd (s := { s with inbox := rest, launch := l }) hi hexec
    · exact hi
    · exact microStep_keeps_initd (s := { s with inbox := rest }) hi hmicro
    · exact hi
    · exact hi
    · exact hi
    · exact absurd hinbox (hreset rest)

end Sys2Proof.Machine
end

/-! PROOFS. ENC as INIT and ENCS in sequence (R50, R73), and DEC as INIT and DECS in sequence (R75): a pass of the loop
and the commands are followed side by side. -/
section
namespace Sys2Proof.Machine

@[simp] theorem pack_pred (c : Code) (s : State) : (pack c s).pred = s.pred := by unfold pack; split <;> rfl
@[simp] theorem pack_inMem (c : Code) (s : State) : (pack c s).inMem = s.inMem := by unfold pack; split <;> rfl
@[simp] theorem packFlush_pred (s : State) : (packFlush s).pred = s.pred := by unfold packFlush; split <;> rfl
@[simp] theorem packFlush_sidx (s : State) : (packFlush s).sidx = s.sidx := by unfold packFlush; split <;> rfl

/-- `r` can be given a sample command, and its PRED and SIDX are those of `v`. -/
structure Mirrors (v r : State) : Prop where
  pred : v.pred = r.pred
  sidx : v.sidx = r.sidx
  busy : r.busy = false
  initd : r.initd = true

/-- ENCS of the byte that an encoder step takes returns its code and follows it. -/
theorem Mirrors.execEncs {b : Byte} {c : Code} {v w r : State} (h : Mirrors v r) (hv : encStep b v = some (c, w)) :
    ∃ r', execEncs b r = .next r' ∧ r'.res = some c.toNat ∧ Mirrors w r' := by
  obtain ⟨step, hstep, -⟩ := encStep_some hv
  rw [currentStep_congr (s' := accept r) h.sidx] at hstep
  obtain ⟨⟨c', u⟩, hu⟩ := encStep_isSome b (currentStep_some hstep).1
  obtain ⟨rfl, d, rfl, rfl⟩ := encStep_congr (s' := accept r) h.pred h.sidx hv hu
  obtain ⟨hpred, hsidx⟩ := stateClamp_movePred_congr (s' := accept r) c d h.pred h.sidx
  exact ⟨_, execEncs_next.mpr ⟨⟨h.busy, h.initd⟩, c, _, hu, rfl⟩, rfl, hpred, hsidx, rfl, h.initd⟩

/-- DECS of the code that a decoder step takes returns its sample and follows it. -/
theorem Mirrors.decodeCommand {c : Code} {y : Byte} {v w r : State} (h : Mirrors v r)
    (hv : decStep c v = some (y, w)) :
    ∃ r', decodeCommand c r = .next r' ∧ r'.res = some y.toNat ∧ Mirrors w r' := by
  obtain ⟨step, hstep, -⟩ := decStep_some hv
  rw [currentStep_congr (s' := accept r) h.sidx] at hstep
  obtain ⟨⟨y', u⟩, hu⟩ := decStep_isSome c (currentStep_some hstep).1
  obtain ⟨rfl, d, rfl, rfl⟩ := decStep_congr (s' := accept r) h.pred h.sidx hv hu
  obtain ⟨hpred, hsidx⟩ := stateClamp_movePred_congr (s' := accept r) c d h.pred h.sidx
  exact ⟨_, decodeCommand_next.mpr ⟨⟨h.busy, h.initd⟩, y, _, hu, rfl⟩, rfl, hpred, hsidx, rfl, h.initd⟩

theorem encsInSequence_cons {b : Byte} {s t : State} (bs : List Byte) (h : execEncs b s = .next t) :
    encsInSequence (b :: bs) s = (t.res.getD 0 :: (encsInSequence bs t).1, (encsInSequence bs t).2) := by
  simp [encsInSequence, exec, h]

theorem decsInSequence_cons {c : Code} {s t : State} (cs : List Code) (h : decodeCommand c s = .next t) :
    decsInSequence (c :: cs) s = (t.res.getD 0 :: (decsInSequence cs t).1, (decsInSequence cs t).2) := by
  simp [decsInSequence, exec, execDecs, h]

/-- INIT of a byte mirrors every state seeded with that byte. -/
theorem mirrors_of_execInit {b : Byte} {s e v : State} (h : execInit b s = .next e)
    (hpred : v.pred = BitVec.ofInt 11 b.toNat) (hsidx : v.sidx = BitVec.ofInt 7 0) : Mirrors v e := by
  obtain ⟨-, rfl⟩ := execInit_next.mp h
  exact ⟨hpred, hsidx, rfl, rfl⟩

/-! ### ENC -/

/-- ENC has packed the codes `cs` behind the seed byte: each OUT byte holds two of them, the earlier one low, and the
packer holds the last one when it is unpaired (R51, R74). -/
structure Packed (cs : List Code) (s : State) : Prop where
  wf : s.outMem.wf = true
  count : packedNibbles s = 2 + cs.length
  held : s.pkPh = true → s.pkLo = cs.getD (2 * s.idxO - 2) 0
  written : ∀ j, 1 ≤ j → j < s.idxO →
    Memory.read s.outMem j = packedByte (cs.getD (2 * j - 2) 0) (cs.getD (2 * j - 1) 0)

theorem Packed.pack {cs : List Code} {s : State} (h : Packed cs s) (c : Code) : Packed (cs ++ [c]) (pack c s) := by
  have hcount := h.count
  have hnext : packedNibbles (Machine.pack c s) = 2 + (cs ++ [c]).length := by
    rw [packedNibbles_pack, hcount, List.length_append, List.length_singleton]
    omega
  cases hp : s.pkPh with
  | false =>
    rw [packedNibbles, hp, Bool.toNat_false] at hcount
    rw [pack_first c hp] at hnext ⊢
    refine ⟨h.wf, hnext, fun _ => ?_, fun j h1 hj => ?_⟩
    · have hlast : 2 * s.idxO - 2 = cs.length := by omega
      simp [hlast]
    · rw [holdCode_idxO] at hj
      rw [holdCode_outMem, h.written j h1 hj, List.getD_append _ _ _ _ (by omega), List.getD_append _ _ _ _ (by omega)]
  | true =>
    rw [packedNibbles, hp, Bool.toNat_true] at hcount
    rw [pack_second c hp] at hnext ⊢
    refine ⟨write_wf _ _ _ h.wf, hnext, nofun, fun j h1 hj => ?_⟩
    rw [releasePack_idxO, emitByte_idxO] at hj
    rw [releasePack_outMem, emitByte_outMem, read_write _ _ _ _ h.wf]
    split_ifs with hlast
    · subst hlast
      have hhigh : 2 * s.idxO - 1 = cs.length := by omega
      rw [h.held hp, List.getD_append _ _ _ _ (by omega), hhigh]
      simp
    · rw [h.written j h1 (by omega), List.getD_append _ _ _ _ (by omega), List.getD_append _ _ _ _ (by omega)]

/-- PackFlush completes the last byte with a zero high nibble, so every byte holds its two codes (R51, R74). -/
theorem Packed.read_packFlush {cs : List Code} {s : State} (h : Packed cs s) {j : Nat} (h1 : 1 ≤ j)
    (hj : j < (packFlush s).idxO) :
    Memory.read (packFlush s).outMem j = packedByte (cs.getD (2 * j - 2) 0) (cs.getD (2 * j - 1) 0) := by
  cases hp : s.pkPh with
  | false =>
    rw [packFlush_empty hp] at hj ⊢
    exact h.written j h1 hj
  | true =>
    have hcount := h.count
    rw [packedNibbles, hp, Bool.toNat_true] at hcount
    rw [packFlush_held hp] at hj ⊢
    rw [releasePack_idxO, emitByte_idxO] at hj
    rw [releasePack_outMem, emitByte_outMem, read_write _ _ _ _ h.wf]
    split_ifs with hlast
    · subst hlast
      rw [h.held hp, List.getD_eq_default (n := 2 * s.idxO - 1) _ _ (by omega)]
    · exact h.written j h1 (by omega)

/-- One pass of ENC is ENCS of the next byte, and packs the code that it returns. -/
theorem encIteration_mirrors {v w r : State} {cs : List Code} (h : encIteration v = some w) (hm : Mirrors v r)
    (hp : Packed cs v) :
    ∃ c r', execEncs (readIn v.idxI v) r = .next r' ∧ r'.res = some c.toNat ∧ Mirrors w r' ∧ Packed (cs ++ [c]) w := by
  obtain ⟨⟨c, u⟩, hu, rfl⟩ := Option.map_eq_some_iff.mp h
  have hread : Mirrors (advanceIn v) r := { hm with }
  obtain ⟨r', hr', hres, hm'⟩ := hread.execEncs hu
  obtain ⟨d, -, rfl⟩ := encStep_eq_stateClamp hu
  have hsame : Packed cs (stateClamp c (movePred c d (advanceIn v))) := { hp with }
  exact ⟨c, r', hr', hres, ⟨(pack_pred c _).trans hm'.pred, (pack_sidx c _).trans hm'.sidx, hm'.busy, hm'.initd⟩,
    hsame.pack c⟩

/-- The loop of ENC is ENCS of each further byte, and packs the codes that they return. -/
theorem encLoop_mirrors {k i : Nat} {m : Memory} {v t r : State} {cs : List Code} {run : List Nat × State}
    (h : encLoop k v = some t) (hi : v.idxI = i) (hin : v.inMem = m) (hm : Mirrors v r) (hp : Packed cs v)
    (hrun : encsInSequence ((List.range' i k).map (Memory.read m)) r = run) :
    ∃ cs' : List Code, cs'.length = k ∧ run.1 = cs'.map BitVec.toNat ∧ Mirrors t run.2 ∧ Packed (cs ++ cs') t := by
  induction k generalizing i v r cs run with
  | zero =>
    cases h
    cases hrun
    exact ⟨[], rfl, rfl, hm, (List.append_nil cs).symm ▸ hp⟩
  | succ k ih =>
    obtain ⟨w, hw, hloop⟩ := Option.bind_eq_some_iff.mp h
    obtain ⟨c, r', hr', hres, hm', hp'⟩ := encIteration_mirrors hw hm hp
    obtain ⟨cs', hlen, hcodes, hm'', hp''⟩ := ih hloop (i := i + 1) (hi ▸ encIteration_idxI hw)
      ((encIteration_frame hw).inMem.trans hin) hm' hp' rfl
    rw [readIn, hi, hin] at hr'
    rw [List.range'_succ, List.map_cons, encsInSequence_cons _ hr', hres] at hrun
    cases hrun
    exact ⟨c :: cs', congrArg (· + 1) hlen, congrArg (c.toNat :: ·) hcodes, hm'',
      (List.append_cons cs c cs').symm ▸ hp''⟩

/-- ENC in full: the codes of ENCS in sequence, behind the seed byte (R50, R51, R73). -/
theorem execEnc_mirrors {n : Nat} {s t e : State} {run : List Nat × State} (hn : 0 < n) (hwf : s.outMem.wf = true)
    (h : execEnc n s = .next t) (he : execInit (Memory.read s.inMem 0) s = .next e)
    (hrun : encsInSequence (bytesAfterFirst s.inMem n) e = run) :
    ∃ cs : List Code, cs.length = n - 1 ∧ run.1 = cs.map BitVec.toNat ∧ Mirrors t run.2 ∧
      ∀ j, 1 ≤ j → j < encLength n →
        Memory.read t.outMem j = packedByte (cs.getD (2 * j - 2) 0) (cs.getD (2 * j - 1) 0) := by
  have hlength := execEnc_idxO hn h
  obtain ⟨u, hu, rfl⟩ := execEnc_pos_next hn h
  have hm : Mirrors (seedFromBuffer (beginEnc n (accept s))) e := mirrors_of_execInit he rfl rfl
  have hp : Packed [] (seedFromBuffer (beginEnc n (accept s))) :=
    ⟨write_wf _ _ _ hwf, rfl, nofun, fun j h1 hj => absurd hj (Nat.not_lt.mpr h1)⟩
  obtain ⟨cs, hlen, hcodes, hm', hp'⟩ := encLoop_mirrors hu (i := 1) (m := s.inMem) rfl rfl hm hp hrun
  exact ⟨cs, hlen, hcodes,
    ⟨(packFlush_pred u).trans hm'.pred, (packFlush_sidx u).trans hm'.sidx, hm'.busy, hm'.initd⟩,
    fun j h1 hj => hp'.read_packFlush h1 (hlength ▸ hj)⟩

/-- Settles O33: the codes that ENCS returns in sequence are the ones ENC has packed. -/
theorem encStreamHoldsEncsCodes : Obligations.EncStreamHoldsEncsCodes := by
  intro s t e n hn hwf h he
  obtain ⟨cs, hlen, hcodes, hm, hread⟩ := execEnc_mirrors hn hwf h he rfl
  obtain ⟨u, hframe, -, -, -, -, rfl⟩ := execEnc_pos_frame hn h
  refine ⟨?_, hm.pred, hm.sidx, hframe.initd.trans hm.initd.symm, fun j h1 hj => ?_⟩
  · rw [hcodes, List.length_map, hlen]
  · have hgetD : ∀ i, (cs.map BitVec.toNat).getD i 0 = (cs.getD i 0).toNat :=
      fun i => List.getD_map cs (0 : Code) BitVec.toNat
    rw [hread j h1 hj, packedByte_eq_add, hcodes, hgetD, hgetD]

/-! ### DEC -/

/-- The two codes of a packed byte in the order of their samples (R49, R76). -/
def nibbles (b : Byte) : List Code := [lowNibble b, highNibble b]

theorem nibbles_eq_divMod :
    ∀ b : Byte, nibbles b = [BitVec.ofNat 4 (b.toNat % 16), BitVec.ofNat 4 (b.toNat / 16)] := by
  decide

theorem nibbles_packedByte (lo hi : Code) : nibbles (packedByte lo hi) = [lo, hi] := by
  obtain ⟨hlo, hhi⟩ := unpack_packedByte lo hi
  rw [nibbles, hlo, hhi]

/-- DEC has written the samples `ys` behind the seed byte (R75). -/
structure Written (ys : List Nat) (s : State) : Prop where
  wf : s.outMem.wf = true
  count : s.idxO = 1 + ys.length
  written : ∀ i, 1 ≤ i → i < s.idxO → (Memory.read s.outMem i).toNat = ys.getD (i - 1) 0

theorem Written.emitByte {ys : List Nat} {s : State} (h : Written ys s) (y : Byte) :
    Written (ys ++ [y.toNat]) (emitByte y s) := by
  have hcount := h.count
  refine ⟨write_wf _ _ _ h.wf, ?_, fun i h1 hi => ?_⟩
  · rw [emitByte_idxO, hcount, List.length_append, List.length_singleton]
    omega
  · rw [emitByte_idxO] at hi
    rw [emitByte_outMem, read_write _ _ _ _ h.wf]
    split_ifs with hlast
    · have hindex : i - 1 = ys.length := by omega
      simp [hindex]
    · rw [h.written i h1 (by omega), List.getD_append _ _ _ _ (by omega)]

/-- One sample of DEC is DECS of its code, and is the sample that it returns. -/
theorem decStep_mirrors {c : Code} {y : Byte} {v w r : State} {ys : List Nat} (h : decStep c v = some (y, w))
    (hm : Mirrors v r) (hw : Written ys v) :
    ∃ r', decodeCommand c r = .next r' ∧ r'.res = some y.toNat ∧ Mirrors (emitByte y w) r' ∧
      Written (ys ++ [y.toNat]) (emitByte y w) := by
  obtain ⟨r', hr', hres, hm'⟩ := hm.decodeCommand h
  obtain ⟨d, -, rfl⟩ := decStep_eq_stateClamp h
  have hsame : Written ys (stateClamp c (movePred c d v)) := { hw with }
  exact ⟨r', hr', hres, { hm' with }, hsame.emitByte y⟩

/-- One pass of DEC is DECS of the low and of the high code of the next byte. -/
theorem decIteration_mirrors {v w r : State} {ys : List Nat} (cs : List Code) (h : decIteration v = some w)
    (hm : Mirrors v r) (hw : Written ys v) :
    ∃ y₁ y₂ r', Mirrors w r' ∧ Written (ys ++ [y₁, y₂]) w ∧
      decsInSequence (nibbles (readIn v.idxI v) ++ cs) r =
        (y₁ :: y₂ :: (decsInSequence cs r').1, (decsInSequence cs r').2) := by
  obtain ⟨y₁, t₁, y₂, t₂, h₁, h₂, rfl⟩ := decIteration_some h
  rw [decStep_upHi h₁, holdHigh_upHi] at h₂
  have hheld : Mirrors (holdHigh (readIn v.idxI v) (advanceIn v)) r := { hm with }
  have hheldOut : Written ys (holdHigh (readIn v.idxI v) (advanceIn v)) := { hw with }
  obtain ⟨r₁, hr₁, hres₁, hm₁, hw₁⟩ := decStep_mirrors h₁ hheld hheldOut
  have hreleased : Mirrors (releaseHigh (emitByte y₁ t₁)) r₁ := { hm₁ with }
  have hreleasedOut : Written (ys ++ [y₁.toNat]) (releaseHigh (emitByte y₁ t₁)) := { hw₁ with }
  obtain ⟨r₂, hr₂, hres₂, hm₂, hw₂⟩ := decStep_mirrors h₂ hreleased hreleasedOut
  refine ⟨y₁.toNat, y₂.toNat, r₂, hm₂, by rwa [List.append_assoc] at hw₂, ?_⟩
  rw [nibbles, List.cons_append, List.cons_append, List.nil_append, decsInSequence_cons _ hr₁,
    decsInSequence_cons _ hr₂, hres₁, hres₂]
  rfl

/-- The loop of DEC is DECS of the codes of each further byte, and writes the samples that they return. -/
theorem decLoop_mirrors {k i : Nat} {m : Memory} {v t r : State} {ys : List Nat} {run : List Nat × State}
    (h : decLoop k v = some t) (hi : v.idxI = i) (hin : v.inMem = m) (hm : Mirrors v r) (hw : Written ys v)
    (hrun : decsInSequence (((List.range' i k).map (Memory.read m)).flatMap nibbles) r = run) :
    run.1.length = 2 * k ∧ Mirrors t run.2 ∧ Written (ys ++ run.1) t := by
  induction k generalizing i v r ys run with
  | zero =>
    cases h
    cases hrun
    exact ⟨rfl, hm, (List.append_nil ys).symm ▸ hw⟩
  | succ k ih =>
    obtain ⟨w, hpass, hloop⟩ := Option.bind_eq_some_iff.mp h
    obtain ⟨y₁, y₂, r', hm', hw', hseq⟩ :=
      decIteration_mirrors (((List.range' (i + 1) k).map (Memory.read m)).flatMap nibbles) hpass hm hw
    obtain ⟨hlen, hm'', hw''⟩ := ih hloop (i := i + 1) (hi ▸ decIteration_idxI hpass)
      ((decIteration_frame hpass).inMem.trans hin) hm' hw' rfl
    rw [readIn, hi, hin] at hseq
    rw [List.range'_succ, List.map_cons, List.flatMap_cons, hseq] at hrun
    cases hrun
    refine ⟨?_, hm'', by rwa [List.append_assoc] at hw''⟩
    rw [List.length_cons, List.length_cons, hlen]
    omega

/-- DEC in full: the samples of DECS in sequence, behind the seed byte (R75, R76). -/
theorem execDec_mirrors {m : Nat} {s t e : State} {run : List Nat × State} (hm : 0 < m) (hwf : s.outMem.wf = true)
    (h : execDec m s = .next t) (he : execInit (Memory.read s.inMem 0) s = .next e)
    (hrun : decsInSequence ((bytesAfterFirst s.inMem m).flatMap nibbles) e = run) :
    run.1.length = 2 * (m - 1) ∧ Mirrors t run.2 ∧
      ∀ i, 1 ≤ i → i < decLength m → (Memory.read t.outMem i).toNat = run.1.getD (i - 1) 0 := by
  have hlength := execDec_idxO hm h
  obtain ⟨u, hu, rfl⟩ := execDec_pos_next hm h
  have hstart : Mirrors (seedFromBuffer (beginDec m (accept s))) e := mirrors_of_execInit he rfl rfl
  have hw : Written [] (seedFromBuffer (beginDec m (accept s))) :=
    ⟨write_wf _ _ _ hwf, rfl, fun i h1 hi => absurd hi (Nat.not_lt.mpr h1)⟩
  obtain ⟨hlen, hm', hw'⟩ := decLoop_mirrors hu (i := 1) (m := s.inMem) rfl rfl hstart hw hrun
  exact ⟨hlen, { hm' with }, fun i h1 hi => hw'.written i h1 (hlength ▸ hi)⟩

/-- Settles O34: the samples that DECS returns in sequence are the ones DEC has written. -/
theorem decSamplesAreDecsSamples : Obligations.DecSamplesAreDecsSamples := by
  intro s t e m hm hwf h he
  obtain ⟨hlen, hmirror, hread⟩ := execDec_mirrors hm hwf h he rfl
  obtain ⟨u, hframe, -, -, -, -, rfl⟩ := execDec_pos_frame hm h
  simp only [funext nibbles_eq_divMod] at hlen hmirror hread
  exact ⟨hlen, hmirror.pred, hmirror.sidx, hframe.initd.trans hmirror.initd.symm, hread⟩

end Sys2Proof.Machine
end

/-! PROOFS. Round trip (R86, R87): DEC of ENC's stream runs DECS of the codes that ENCS returned, and DECS of a code of
ENCS follows it (R82). -/
section
namespace Sys2Proof.Machine

theorem Mirrors.committed {v r : State} (h : Mirrors v r) (hc : Committed v) : Committed r := by
  rw [Committed, PredCommitted, SidxCommitted, ← h.pred, ← h.sidx]
  exact hc

theorem decodeCommand_mirrors {c : Code} {v w r : State} (h : Mirrors v r) (hv : decodeCommand c v = .next w) :
    ∃ r', decodeCommand c r = .next r' ∧ r'.res = w.res ∧ Mirrors w r' := by
  obtain ⟨-, y, u, hu, rfl⟩ := decodeCommand_next.mp hv
  have hacc : Mirrors (accept v) r := { h with }
  obtain ⟨r', hr', hres, hm⟩ := hacc.decodeCommand hu
  exact ⟨r', hr', hres, { hm with }⟩

/-- One ENCS in a committed state, and the DECS of its code that follows it and returns its predictor (R82). -/
theorem encs_then_decs (b : Byte) {e d : State} (hc : Committed e) (hself : Mirrors e e) (hm : Mirrors e d) :
    ∃ (c : Code) (e' d' : State), execEncs b e = .next e' ∧ e'.res = some c.toNat ∧ decodeCommand c d = .next d' ∧
      d'.res = some e'.pred.toInt.toNat ∧ Committed e' ∧ Mirrors e' e' ∧ Mirrors e' d' := by
  obtain ⟨⟨c, u⟩, hu⟩ := encStep_isSome b hc.2
  obtain ⟨e', he', -, hm'⟩ := hself.execEncs hu
  obtain ⟨c', hres, hdecs, hc'⟩ := decoderFollowsEncoder e e' b hc he'
  obtain ⟨d', hd', hdres, hmd⟩ := decodeCommand_mirrors hm hdecs
  exact ⟨c', e', d', he', hres, hd', hdres, hc', ⟨rfl, rfl, hm'.busy, hm'.initd⟩, { hmd with }⟩

/-- DECS of the codes that ENCS returned gives the predictor after each ENCS, and ends in step with it; further codes
are decoded from there. -/
theorem decs_follow_encs {bs : List Byte} {e d : State} {cs : List Code} (hc : Committed e) (hself : Mirrors e e)
    (hm : Mirrors e d) (hcs : (encsInSequence bs e).1 = cs.map BitVec.toNat) :
    ∃ (ys : List Nat) (d' : State), ys.length = bs.length ∧ Committed (encsInSequence bs e).2 ∧
      Mirrors (encsInSequence bs e).2 d' ∧
      (∀ i < bs.length, (ys.getD i 0 : Int) = (encsInSequence (bs.take (i + 1)) e).2.pred.toInt) ∧
      ∀ cs', decsInSequence (cs ++ cs') d = (ys ++ (decsInSequence cs' d').1, (decsInSequence cs' d').2) := by
  induction bs generalizing e d cs with
  | nil =>
    obtain rfl : cs = [] := List.map_eq_nil_iff.mp hcs.symm
    exact ⟨[], d, rfl, hc, hm, fun i hi => absurd hi (Nat.not_lt_zero i), fun cs' => rfl⟩
  | cons b bs ih =>
    obtain ⟨c, e', d', he', hres, hd', hdres, hc', hself', hm'⟩ := encs_then_decs b hc hself hm
    rw [encsInSequence_cons bs he', hres] at hcs
    obtain ⟨c₁, cs, rfl, hfirst, hrest⟩ := List.map_eq_cons_iff.mp hcs.symm
    obtain rfl : c₁ = c := BitVec.eq_of_toNat_eq hfirst
    obtain ⟨ys, d'', hlen, hend, hm'', hpreds, hdecs⟩ := ih hc' hself' hm' hrest.symm
    rw [encsInSequence_cons bs he']
    refine ⟨e'.pred.toInt.toNat :: ys, d'', congrArg (· + 1) hlen, hend, hm'', fun i hi => ?_, fun cs' => ?_⟩
    · rw [List.take_succ_cons, encsInSequence_cons _ he']
      cases i with
      | zero => exact Int.toNat_of_nonneg hc'.1.1
      | succ i => exact hpreds i (Nat.lt_of_succ_lt_succ hi)
    · rw [List.cons_append, decsInSequence_cons _ hd', hdecs, hdres]
      rfl

/-! ### The stream as codes -/

/-- Codes in pairs are the codes in a row, with a 0 behind an odd number of them (R51). -/
theorem flatMap_pairs : ∀ cs : List Code,
    ((List.range ((cs.length + 1) / 2)).flatMap fun i => [cs.getD (2 * i) 0, cs.getD (2 * i + 1) 0]) =
      cs ++ List.replicate (cs.length % 2) 0
  | [] => rfl
  | [_] => by simp [List.range_succ]
  | c :: c' :: cs => by
    have hhalf : ((c :: c' :: cs).length + 1) / 2 = (cs.length + 1) / 2 + 1 := by
      simp only [List.length_cons]
      omega
    have hparity : (c :: c' :: cs).length % 2 = cs.length % 2 := by
      simp only [List.length_cons]
      omega
    rw [hhalf, hparity, List.range_succ_eq_map, List.flatMap_cons, List.flatMap_map]
    exact congrArg (fun l => c :: c' :: l) (flatMap_pairs cs)

/-- The codes in a stream that ENC has packed (R51, R76). -/
theorem streamCodes_eq {m : Memory} {n : Nat} {cs : List Code} (hn : 0 < n) (hlen : cs.length = n - 1)
    (hread : ∀ j, 1 ≤ j → j < encLength n →
      Memory.read m j = packedByte (cs.getD (2 * j - 2) 0) (cs.getD (2 * j - 1) 0)) :
    (bytesAfterFirst m (encLength n)).flatMap nibbles = cs ++ List.replicate ((n - 1) % 2) 0 := by
  have hlength : encLength n - 1 = (cs.length + 1) / 2 := by
    rw [encLength_of_pos hn, hlen]
    omega
  rw [← hlen, ← flatMap_pairs, bytesAfterFirst, hlength, List.range'_eq_map_range, List.map_map, List.flatMap_map]
  refine List.flatMap_congr fun i hi => ?_
  rw [List.mem_range] at hi
  have hlow : 2 * (1 + i) - 2 = 2 * i := by omega
  have hhigh : 2 * (1 + i) - 1 = 2 * i + 1 := by omega
  rw [Function.comp_apply, hread (1 + i) (by omega) (by omega), nibbles_packedByte, hlow, hhigh]

/-! ### A shorter ENC -/

theorem encLength_mono {k n : Nat} (h : k ≤ n) : encLength k ≤ encLength n := by
  unfold encLength
  split_ifs <;> omega

theorem launchable_of_le {k n : Nat} {s : State} (hk : k ≤ n) (h : Launchable n (encLength n) s) :
    Launchable k (encLength k) s := by
  obtain ⟨hb, hn, hcap, hover⟩ := h
  refine ⟨hb, hk.trans_lt hn, (encLength_mono hk).trans hcap, ?_⟩
  rw [← Bool.not_eq_true, overlapping_iff] at hover ⊢
  rintro ⟨i, o, hbind, a, ha, hak, hrest⟩
  exact hover ⟨i, o, hbind, a, ha, by omega, hrest⟩

theorem bytesAfterFirst_succ (m : Memory) {i n : Nat} (hi : i < n) :
    bytesAfterFirst m (i + 1) = (bytesAfterFirst m n).take i := by
  rw [bytesAfterFirst, bytesAfterFirst, ← List.map_take, Nat.add_sub_cancel,
    List.take_range'_of_length_ge (Nat.le_sub_one_of_lt hi)]

/-- The predictor inside ENC after sample `i` is the one that the shorter ENC ends with. -/
theorem exists_execEnc_shorter {n i : Nat} {s t e : State} (hwf : s.outMem.wf = true) (h : execEnc n s = .next t)
    (he : execInit (Memory.read s.inMem 0) s = .next e) (hi : i < n) :
    ∃ w, execEnc (i + 1) s = .next w ∧ w.pred = (encsInSequence ((bytesAfterFirst s.inMem n).take i) e).2.pred := by
  obtain ⟨hlaunch, -⟩ := execEnc_next.mp h
  obtain ⟨w, hw⟩ := execEnc_isSome (launchable_of_le hi hlaunch)
  obtain ⟨-, -, -, hm, -⟩ := execEnc_mirrors (Nat.succ_pos i) hwf hw he rfl
  exact ⟨w, hw, bytesAfterFirst_succ s.inMem hi ▸ hm.pred⟩

/-! ### The round trip -/

/-- DEC of ENC's stream in full: the first sample, the predictors inside ENC, and then, from a state `d` that mirrors
where ENC ended, the filling nibble of an even count. -/
theorem roundTrip {s t u v : State} {n : Nat} (hn : 0 < n) (hwf : s.outMem.wf = true) (hwf' : u.outMem.wf = true)
    (henc : execEnc n s = .next t)
    (hstream : ∀ j, j < encLength n → Memory.read u.inMem j = Memory.read t.outMem j)
    (hdec : execDec (encLength n) u = .next v) :
    Memory.read v.outMem 0 = Memory.read s.inMem 0 ∧
    (∀ i, 1 ≤ i → i < n →
      ∃ w, execEnc (i + 1) s = .next w ∧ ((Memory.read v.outMem i).toNat : Int) = w.pred.toInt) ∧
    ∃ d, Committed d ∧ Mirrors t d ∧ Mirrors v (decsInSequence (List.replicate ((n - 1) % 2) 0) d).2 ∧
      (n % 2 = 0 →
        (Memory.read v.outMem n).toNat = (decsInSequence (List.replicate ((n - 1) % 2) 0) d).1.getD 0 0) := by
  have hm0 : 0 < encLength n := Nat.pos_of_ne_zero (encLength_eq_zero_iff.not.mpr hn.ne')
  have hfirst : Memory.read u.inMem 0 = Memory.read s.inMem 0 :=
    (hstream 0 hm0).trans (firstSampleIdentity s t n hn hwf (.inl henc))
  have hback := (firstSampleIdentity u v _ hm0 hwf' (.inr hdec)).trans hfirst
  obtain ⟨⟨hb, -⟩, -⟩ := execEnc_next.mp henc
  obtain ⟨⟨hb', -⟩, -⟩ := execDec_next.mp hdec
  have he := (execInit_next (b := Memory.read s.inMem 0)).mpr ⟨hb, rfl⟩
  have hd := (execInit_next (b := Memory.read u.inMem 0)).mpr ⟨hb', rfl⟩
  obtain ⟨cs, hlen, hcodes, hmt, hread⟩ := execEnc_mirrors hn hwf henc he rfl
  obtain ⟨-, hmv, hsamples⟩ := execDec_mirrors hm0 hwf' hdec hd rfl
  rw [streamCodes_eq hn hlen fun j h1 hj => (hstream j hj).trans (hread j h1 hj)] at hmv hsamples
  have hseeded : Committed (returnResult 0 (seed (Memory.read s.inMem 0) (accept s))) :=
    seed_committed (Memory.read s.inMem 0) (accept s)
  obtain ⟨ys, d, hys, hc, hmd, hpreds, hdecs⟩ := decs_follow_encs hseeded (mirrors_of_execInit he rfl rfl)
    (mirrors_of_execInit hd (by rw [hfirst]; rfl) rfl) hcodes
  rw [hdecs] at hmv hsamples
  have hcount : ys.length = n - 1 := by rw [hys, bytesAfterFirst, List.length_map, List.length_range']
  have hout := decLength_encLength hn
  refine ⟨hback, fun i h1 hi => ?_, d, hmd.committed hc, ⟨hmt.pred.trans hmd.pred, hmt.sidx.trans hmd.sidx, hmd.busy,
    hmd.initd⟩, hmv, fun heven => ?_⟩
  · obtain ⟨w, hw, hpred⟩ := exists_execEnc_shorter hwf henc he hi
    have hsample := hpreds (i - 1) (by omega)
    rw [Nat.sub_add_cancel h1] at hsample
    refine ⟨w, hw, ?_⟩
    rw [hsamples i h1 (by omega), List.getD_append _ _ _ _ (by omega), hsample, hpred]
  · rw [hsamples n hn (by omega), List.getD_append_right _ _ _ _ (by omega), hcount, Nat.sub_self]

/-- Settles O36: an odd count leaves no filling nibble, so DEC ends where ENC did. -/
theorem roundTripFollowsPredictor : Obligations.RoundTripFollowsPredictor := by
  intro s t u v n hn hwf hwf' henc hstream hdec
  obtain ⟨hfirst, hpreds, d, -, hmt, hmv, -⟩ := roundTrip hn hwf hwf' henc hstream hdec
  refine ⟨hfirst, hpreds, fun hodd => ?_⟩
  have hnone : (n - 1) % 2 = 0 := by omega
  rw [hnone] at hmv
  exact ⟨hmv.pred.trans hmt.pred.symm, hmv.sidx.trans hmt.sidx.symm⟩

/-- DECS of code 0 in a committed state: up by an eighth of the step, and SIDX down by 1 (R65, R87). -/
theorem decodeCommand_zero {d : State} (hc : Committed d) (hb : d.busy = false) (hi : d.initd = true) :
    ∃ step d', stepRom d.sidx.toInt = some step ∧ decodeCommand 0 d = .next d' ∧
      d'.res = some (clampP (d.pred.toInt + (step / 8 : Nat))).toNat ∧
      d'.pred.toInt = clampP (d.pred.toInt + (step / 8 : Nat)) ∧ d'.sidx.toInt = max 0 (d.sidx.toInt - 1) := by
  obtain ⟨step, hstep⟩ := stepRom_isSome hc.2.1 hc.2.2
  obtain ⟨hdown, -⟩ := clampI_add_idxRom 0 hc.2.1 hc.2.2
  refine ⟨step, _, hstep, decodeCommand_eq_sampleResult 0 hb hi hc hstep, rfl, sampleResult_pred_toInt _ _ _ _ d, ?_⟩
  rw [sampleResult_sidx_toInt, hdown rfl]

/-- Settles O37: an even count leaves one filling nibble, which DECS decodes as code 0 where ENC ended. -/
theorem evenLengthDecodesOneMore : Obligations.EvenLengthDecodesOneMore := by
  intro s t u v n hn heven hwf hwf' henc hstream hdec
  obtain ⟨hfirst, hpreds, d, hc, hmt, hmv, hlast⟩ := roundTrip hn hwf hwf' henc hstream hdec
  obtain ⟨step, d', hstep, hd', hres, hpred, hsidx⟩ := decodeCommand_zero hc hmt.busy hmt.initd
  have hone : (n - 1) % 2 = 1 := by omega
  rw [hone, List.replicate_one, decsInSequence_cons [] hd'] at hmv hlast
  have hsample := hlast heven
  rw [hres] at hsample
  refine ⟨?_, ?_, hfirst, hpreds, step, ?_, ?_, ?_, ?_⟩
  · rw [execEnc_res henc, encLength, if_neg hn.ne', Nat.add_comm]
  · rw [execDec_res hdec, decLength_encLength hn]
    congr 1
    omega
  · rw [hmt.sidx]; exact hstep
  · rw [hsample, hmt.pred]; exact Int.toNat_of_nonneg (clampP_range _).1
  · rw [hmt.pred, hmv.pred]; exact hpred
  · rw [hmt.sidx, hmv.sidx]; exact hsidx

end Sys2Proof.Machine
end

/-! PROOFS. A started command reaches its meaning (R14, R90): the micro-steps perform the body of the transaction, which
does not look at the command held. -/
section
namespace Sys2Proof.Machine

/-! ### The command held -/

def withCmd (i : Option Instr) (s : State) : State := { s with cmd := i }

/-- A body neither reads nor writes the command held, nor the micro-steps left. -/
def IgnoresCmd (body : State → Option (Nat × State)) : Prop :=
  ∀ ⦃s t : State⦄ ⦃r : Nat⦄ (i : Option Instr), body s = some (r, t) →
    body (withCmd i s) = some (r, withCmd i t) ∧ t.cmd = s.cmd ∧ t.todo = s.todo

section
variable {s t : State} (i : Option Instr)

theorem encStep_withCmd {b : Byte} {c : Code} (h : encStep b s = some (c, t)) :
    encStep b (withCmd i s) = some (c, withCmd i t) := by
  obtain ⟨step, hstep, rfl, rfl, -⟩ := encStep_some h
  have hsame : currentStep (withCmd i s) = some step := hstep
  rw [encStep, hsame]
  rfl

theorem decStep_withCmd {c : Code} {y : Byte} (h : decStep c s = some (y, t)) :
    decStep c (withCmd i s) = some (y, withCmd i t) := by
  obtain ⟨step, hstep, rfl, rfl, -⟩ := decStep_some h
  have hsame : currentStep (withCmd i s) = some step := hstep
  rw [decStep, hsame]
  rfl

theorem pack_withCmd (c : Code) : pack c (withCmd i s) = withCmd i (pack c s) := by
  cases hp : s.pkPh with
  | false => rw [pack_first c hp, pack_first (s := withCmd i s) c hp]; rfl
  | true => rw [pack_second c hp, pack_second (s := withCmd i s) c hp]; rfl

theorem packFlush_withCmd : packFlush (withCmd i s) = withCmd i (packFlush s) := by
  cases hp : s.pkPh with
  | false => rw [packFlush_empty hp, packFlush_empty (s := withCmd i s) hp]
  | true => rw [packFlush_held hp, packFlush_held (s := withCmd i s) hp]; rfl

theorem encIteration_withCmd (h : encIteration s = some t) : encIteration (withCmd i s) = some (withCmd i t) := by
  obtain ⟨⟨c, u⟩, hu, rfl⟩ := Option.map_eq_some_iff.mp h
  rw [← pack_withCmd]
  exact congrArg (Option.map _) (encStep_withCmd i hu)

theorem encLoop_withCmd {k : Nat} (h : encLoop k s = some t) : encLoop k (withCmd i s) = some (withCmd i t) := by
  induction k generalizing s with
  | zero => cases h; rfl
  | succ k ih =>
    obtain ⟨u, hu, hloop⟩ := Option.bind_eq_some_iff.mp h
    rw [encLoop, encIteration_withCmd i hu, Option.bind_some, ih hloop]

theorem decIteration_withCmd (h : decIteration s = some t) : decIteration (withCmd i s) = some (withCmd i t) := by
  obtain ⟨y₁, t₁, y₂, t₂, h₁, h₂, rfl⟩ := decIteration_some h
  have hlow : decStep (lowNibble (readIn (withCmd i s).idxI (withCmd i s)))
      (holdHigh (readIn (withCmd i s).idxI (withCmd i s)) (advanceIn (withCmd i s))) = some (y₁, withCmd i t₁) :=
    decStep_withCmd i h₁
  have hhigh : decStep (withCmd i t₁).upHi (releaseHigh (emitByte y₁ (withCmd i t₁))) = some (y₂, withCmd i t₂) :=
    decStep_withCmd i h₂
  simp only [decIteration, hlow]
  exact congrArg (Option.map _) hhigh

theorem decLoop_withCmd {k : Nat} (h : decLoop k s = some t) : decLoop k (withCmd i s) = some (withCmd i t) := by
  induction k generalizing s with
  | zero => cases h; rfl
  | succ k ih =>
    obtain ⟨u, hu, hloop⟩ := Option.bind_eq_some_iff.mp h
    rw [decLoop, decIteration_withCmd i hu, Option.bind_some, ih hloop]

end

theorem encBody_ignoresCmd (n : Nat) : IgnoresCmd (encBody n) := by
  intro s t r i h
  by_cases hn : n = 0
  · rw [encBody, if_pos hn] at h ⊢
    cases h
    exact ⟨rfl, rfl, rfl⟩
  · rw [encBody, if_neg hn] at h ⊢
    obtain ⟨u, hu, hpair⟩ := Option.map_eq_some_iff.mp h
    cases hpair
    have hframe := (encLoop_frame hu).1.trans (packFlush_frame u)
    have hflush : ((packFlush (withCmd i u)).idxO, packFlush (withCmd i u)) =
        ((packFlush u).idxO, withCmd i (packFlush u)) := by rw [packFlush_withCmd]; rfl
    refine ⟨?_, hframe.cmd, hframe.todo⟩
    rw [← hflush]
    exact congrArg (Option.map _) (encLoop_withCmd i hu)

theorem decBody_ignoresCmd (m : Nat) : IgnoresCmd (decBody m) := by
  intro s t r i h
  by_cases hm : m = 0
  · rw [decBody, if_pos hm] at h ⊢
    cases h
    exact ⟨rfl, rfl, rfl⟩
  · rw [decBody, if_neg hm] at h ⊢
    obtain ⟨u, hu, hpair⟩ := Option.map_eq_some_iff.mp h
    cases hpair
    have hframe := (decLoop_frame hu rfl).1
    exact ⟨congrArg (Option.map _) (decLoop_withCmd i hu), hframe.cmd, hframe.todo⟩

theorem encsBody_ignoresCmd (b : Byte) : IgnoresCmd fun s => (encStep b s).map fun ct => (ct.1.toNat, ct.2) := by
  intro s t r i h
  obtain ⟨⟨c, u⟩, hu, hpair⟩ := Option.map_eq_some_iff.mp h
  cases hpair
  exact ⟨congrArg (Option.map _) (encStep_withCmd i hu), (encStep_frame hu).cmd, (encStep_frame hu).todo⟩

theorem decsBody_ignoresCmd (c : Code) : IgnoresCmd fun s => (decStep c s).map fun yt => (yt.1.toNat, yt.2) := by
  intro s t r i h
  obtain ⟨⟨y, u⟩, hu, hpair⟩ := Option.map_eq_some_iff.mp h
  cases hpair
  exact ⟨congrArg (Option.map _) (decStep_withCmd i hu), (decStep_frame hu).cmd, (decStep_frame hu).todo⟩

theorem initBody_ignoresCmd (b : Byte) : IgnoresCmd fun s => some (0, seed b s) := by
  intro s t r i h
  cases h
  exact ⟨rfl, rfl, rfl⟩

/-! ### The micro-steps perform the body -/

/-- From every state in progress the micro-steps `ms` perform `body` and complete with its result. -/
def Realises (ms : List Micro) (body : State → Option (Nat × State)) : Prop :=
  ∀ ⦃s t : State⦄ ⦃r : Nat⦄, Running s → body s = some (r, t) →
    ∃ src as, resultOf src t = r ∧ Performs { s with todo := ms } as (finishOperation src { t with todo := [] })

theorem performs_finish (src : ResultSource) {s : State} (hs : Running s) :
    Performs { s with todo := [.finish src] } [] (finishOperation src { s with todo := [] }) :=
  performs_micro hs rfl

/-- The encoder's sample step in ENCS completes with its code (R68). -/
theorem performs_encSample_result {b : Byte} {c : Code} {s t : State} (hs : Running s)
    (h : encStep b s = some (c, t)) :
    Performs { s with todo := [.encSample b false] } [] { t with todo := [.finish (.value c.toNat)] } := by
  obtain ⟨step, hstep, rfl, rfl, -⟩ := encStep_some h
  have hop : microOp (.encSample b false) { s with todo := [] } = _ := congrArg (Option.map _) hstep
  exact (performs_micro hs hop).trans (performs_clampMicros _ _ (s := movePred _ _ s) hs)

theorem init_realises (b : Byte) : Realises (microProgram (.init b)) fun s => some (0, seed b s) := by
  intro s t r hs h
  cases h
  exact ⟨.value 0, _, rfl, .step hs rfl (.step hs rfl (.step hs rfl (performs_finish _ (s := seed b s) hs)))⟩

theorem encs_realises (b : Byte) :
    Realises (microProgram (.encs b)) fun s => (encStep b s).map fun ct => (ct.1.toNat, ct.2) := by
  intro s t r hs h
  obtain ⟨⟨c, u⟩, hu, hpair⟩ := Option.map_eq_some_iff.mp h
  cases hpair
  exact ⟨.value c.toNat, _, rfl, (performs_encSample_result hs hu).trans (performs_finish _ (hs.encStep hu))⟩

theorem decs_realises (c : Code) :
    Realises (decodeProgram c) fun s => (decStep c s).map fun yt => (yt.1.toNat, yt.2) := by
  intro s t r hs h
  obtain ⟨⟨y, u⟩, hu, hpair⟩ := Option.map_eq_some_iff.mp h
  cases hpair
  obtain ⟨-, -, rfl, -⟩ := decStep_some hu
  exact ⟨.pred, _, rfl, (performs_decSample [.finish .pred] hs hu).trans (performs_finish _ (hs.decStep hu))⟩

theorem enc_realises (n : Nat) : Realises (microProgram (.enc n)) (encBody n) := by
  intro s t r hs h
  by_cases hn : n = 0
  · rw [encBody, if_pos hn] at h
    cases h
    rw [microProgram, if_pos hn]
    exact ⟨.value 0, _, rfl, performs_finish _ hs⟩
  · rw [encBody, if_neg hn] at h
    obtain ⟨u, hu, hpair⟩ := Option.map_eq_some_iff.mp h
    cases hpair
    have hbegin : Performs { s with todo := [.beginEnc n, .fetchSeed, .encNext] } []
        { beginEnc n s with todo := [.fetchSeed, .encNext] } := performs_micro hs rfl
    have hseed := performs_fetchSeed [.encNext] (s := beginEnc n s) hs
    have hstart : EncAt n 1 (seedFromBuffer (beginEnc n s)) := encAt_seedFromBuffer hs
    obtain ⟨v, hv, hat, hloop⟩ := hstart.performs_encLoop (k := n - 1) (by omega)
    obtain rfl : u = v := Option.some.inj (hu.symm.trans hv)
    have hend := performs_encEnd hat.running (by rw [hat.idxI, hat.cnt]; omega)
    rw [microProgram, if_neg hn]
    exact ⟨.idxO, _, rfl, hbegin.trans (hseed.trans (hloop.trans hend))⟩

theorem dec_realises (m : Nat) : Realises (microProgram (.dec m)) (decBody m) := by
  intro s t r hs h
  by_cases hm : m = 0
  · rw [decBody, if_pos hm] at h
    cases h
    rw [microProgram, if_pos hm]
    exact ⟨.value 0, _, rfl, performs_finish _ hs⟩
  · rw [decBody, if_neg hm] at h
    obtain ⟨u, hu, hpair⟩ := Option.map_eq_some_iff.mp h
    cases hpair
    have hbegin : Performs { s with todo := [.beginDec m, .fetchSeed, .decNext] } []
        { beginDec m s with todo := [.fetchSeed, .decNext] } := performs_micro hs rfl
    have hseed := performs_fetchSeed [.decNext] (s := beginDec m s) hs
    have hstart : DecAt m 1 (seedFromBuffer (beginDec m s)) := decAt_seedFromBuffer hs
    obtain ⟨v, hv, hat, hloop⟩ := hstart.performs_decLoop (k := m - 1) (by omega)
    obtain rfl : t = v := Option.some.inj (hu.symm.trans hv)
    have hend := performs_decEnd hat.running (by rw [hat.idxI, hat.cnt]; omega)
    rw [microProgram, if_neg hm]
    exact ⟨.idxO, _, rfl, hbegin.trans (hseed.trans (hloop.trans hend))⟩

/-! ### The two forms of a command agree -/

/-- Completing a started operation is returning the result of the command, which nobody holds. -/
theorem finishOperation_withCmd {src : ResultSource} {r : Nat} {i : Option Instr} {t : State}
    (hres : resultOf src (withCmd i t) = r) (hcmd : t.cmd = none) (htodo : t.todo = []) :
    finishOperation src { withCmd i t with todo := [] } = returnResult r t := by
  have hsrc : resultOf src { withCmd i t with todo := [] } = r := by
    rw [← hres]
    cases src <;> rfl
  rw [finishOperation, hsrc]
  simp [returnResult, withCmd, hcmd, htodo]

/-- What the micro-steps of an accepted command realise, the command run as one transaction gives too. -/
theorem started_reaches {i : Instr} {why : Option Refusal} {body : State → Option (Nat × State)} {s s0 t : State}
    (hprogram : Realises (microProgram i) body) (hcmd : IgnoresCmd body) (hinbox : s.inbox = []) (hidle : Idle s)
    (hstart : beginCommand i s = .next s0) (hrun : transact why body s = .next t) : ∃ k, busyUntil s0 k t := by
  obtain ⟨-, htodo, hnone⟩ := hidle
  obtain ⟨-, rfl⟩ := beginCommand_next hstart
  obtain ⟨-, r, u, hbody, rfl⟩ := transact_next.mp hrun
  obtain ⟨hheld, hucmd, hutodo⟩ := hcmd (some i) hbody
  obtain ⟨src, as, hres, hperforms⟩ := hprogram (s := withCmd (some i) (accept s)) ⟨hinbox, rfl⟩ hheld
  rw [finishOperation_withCmd hres (hucmd.trans hnone) (hutodo.trans htodo)] at hperforms
  obtain ⟨k, hbusy, -⟩ := hperforms.run
  exact ⟨k, hbusy⟩

theorem started_decode_reaches {i : Instr} {c : Code} {s s0 t : State} (hprogram : microProgram i = decodeProgram c)
    (hinbox : s.inbox = []) (hidle : Idle s) (hstart : beginCommand i s = .next s0)
    (hrun : decodeCommand c s = .next t) : ∃ k, busyUntil s0 k t := by
  have hrealises := decs_realises c
  rw [← hprogram] at hrealises
  exact started_reaches (why := sampleRefusal s) hrealises (decsBody_ignoresCmd c) hinbox hidle hstart hrun

/-- Settles O38: for each instruction the micro-steps of its program perform the body of its meaning. -/
theorem microStepsReachTheMeaning : Obligations.MicroStepsReachTheMeaning := by
  intro i s s0 t hinbox hidle hstart hrun
  cases i
  case init b => exact started_reaches (init_realises b) (initBody_ignoresCmd b) hinbox hidle hstart hrun
  case encs b => exact started_reaches (encs_realises b) (encsBody_ignoresCmd b) hinbox hidle hstart hrun
  case enc n => exact started_reaches (enc_realises n) (encBody_ignoresCmd n) hinbox hidle hstart hrun
  case dec m => exact started_reaches (dec_realises m) (decBody_ignoresCmd m) hinbox hidle hstart hrun
  all_goals exact started_decode_reaches rfl hinbox hidle hstart hrun

end Sys2Proof.Machine
end

/-! PROOFS. The micro-steps of the sample operations: no access to a buffer (R35), and the values at each boundary
(R71). -/
section
namespace Sys2Proof.Machine

/-- A micro-step of INIT, ENCS, DECS or a CODE4 row. -/
def Micro.ofSampleOperation : Micro → Bool
  | .writePred _ | .zeroSidx | .setInitd | .encSample _ false | .decSample _ | .clampPred | .adjustSidx _ | .clampSidx
  | .finish _ => true
  | _ => false

theorem microAccess_of_sampleOperation {m : Micro} (h : m.ofSampleOperation = true) (s : State) :
    microAccess m s = none := by
  cases m
  case fetchSeed | emit | emitPred | pack | packFlush | encNext | decNext => cases h
  all_goals rfl

/-- A sample operation schedules micro-steps of sample operations only. -/
theorem microOp_keeps_sampleOperation {m : Micro} {s t : State} (hm : m.ofSampleOperation = true)
    (hs : s.todo.all Micro.ofSampleOperation = true) (h : microOp m s = some t) :
    t.todo.all Micro.ofSampleOperation = true := by
  cases m
  case encSample b toPacker =>
    obtain ⟨step, -, rfl⟩ := Option.map_eq_some_iff.mp h
    cases toPacker
    · simpa [clampMicros, Micro.ofSampleOperation] using hs
    · cases hm
  case decSample c =>
    obtain ⟨step, -, rfl⟩ := Option.map_eq_some_iff.mp h
    simpa [clampMicros, Micro.ofSampleOperation] using hs
  case writePred | zeroSidx | setInitd | clampPred | adjustSidx | clampSidx | finish => cases h; exact hs
  all_goals cases hm

theorem accessesOf_sampleOperation (k : Nat) {s : State} (hs : s.todo.all Micro.ofSampleOperation = true) :
    accessesOf k s = [] := by
  induction k generalizing s with
  | zero => rfl
  | succ k ih =>
    cases hstep : microStep s with
    | fault f => simp [accessesOf, hstep]
    | refused r => simp [accessesOf, hstep]
    | next t =>
      rw [accessesOf_succ k hstep]
      obtain ⟨hnil, rfl⟩ | ⟨m, rest, htodo, hop⟩ := microStep_next hstep
      · rw [ih hs, nextAccess, hnil]
        rfl
      · rw [htodo, List.all_cons, Bool.and_eq_true] at hs
        obtain ⟨hm, hrest⟩ := hs
        rw [ih (microOp_keeps_sampleOperation (s := { s with todo := rest }) hm hrest hop), nextAccess_of_todo htodo,
          microAccess_of_sampleOperation hm]
        rfl

/-- Settles O41: a sample operation's program holds no micro-step that accesses a buffer, and none is scheduled. -/
theorem sampleOperationsTouchNoBuffer : Obligations.SampleOperationsTouchNoBuffer := by
  intro i s s0 k henc hdec _ _ hstart
  obtain ⟨-, rfl⟩ := beginCommand_next hstart
  refine accessesOf_sampleOperation k ?_
  cases i
  case enc n => exact absurd rfl (henc n)
  case dec m => exact absurd rfl (hdec m)
  all_goals rfl

/-! ### The boundaries of R71 -/

theorem run_succ_of_step {M : Host.Core} {s t : M.State} (k : Nat) (h : M.step s = .next t) :
    M.run (k + 1) s = M.run k t := by
  rw [Host.Core.run, h]

theorem run_of_microStep {s t : State} (k : Nat) (hinbox : s.inbox = []) (h : microStep s = .next t) :
    Host.Core.run Sys2Proof.core (k + 1) s = Host.Core.run Sys2Proof.core k t :=
  run_succ_of_step (M := Sys2Proof.core) k ((step_of_inbox_nil hinbox).trans h)

theorem readsShowRegisters_of_initd {s : State} (h : s.initd = true) : readsShowRegisters s :=
  ⟨readField_eq_fieldValue (.inl h), readField_eq_fieldValue (.inl h)⟩

theorem readsAreRefused_of_initd {s : State} (h : s.initd = false) : readsAreRefused s := by
  have hpred : readField .pred s = none := readField_eq_none_iff.mpr ⟨h, .inl rfl⟩
  have hsidx : readField .sidx s = none := readField_eq_none_iff.mpr ⟨h, .inr rfl⟩
  exact ⟨by rw [hostRead, hpred], by rw [hostRead, hsidx]⟩

/-- The four boundaries of a sample step that has made its first micro-step (R71). -/
theorem run_sampleStep {w s0 : State} {c : Code} {d : Nat} {ms : List Micro} (hinbox : s0.inbox = [])
    (hinbox' : w.inbox = []) (h : microStep s0 = .next { movePred c d w with todo := clampMicros c ++ ms }) :
    Host.Core.run Sys2Proof.core 1 s0 = .next { movePred c d w with todo := clampMicros c ++ ms } ∧
    Host.Core.run Sys2Proof.core 2 s0 =
      .next { clampPred (movePred c d w) with todo := .adjustSidx c :: .clampSidx :: ms } ∧
    Host.Core.run Sys2Proof.core 3 s0 =
      .next { adjustSidx c (clampPred (movePred c d w)) with todo := .clampSidx :: ms } ∧
    Host.Core.run Sys2Proof.core 4 s0 = .next { stateClamp c (movePred c d w) with todo := ms } := by
  have h1 := fun k => run_of_microStep k hinbox h
  have h2 := fun k => run_of_microStep (s := { movePred c d w with todo := clampMicros c ++ ms })
    (t := { clampPred (movePred c d w) with todo := .adjustSidx c :: .clampSidx :: ms }) k hinbox' rfl
  have h3 := fun k => run_of_microStep
    (s := { clampPred (movePred c d w) with todo := .adjustSidx c :: .clampSidx :: ms })
    (t := { adjustSidx c (clampPred (movePred c d w)) with todo := .clampSidx :: ms }) k hinbox' rfl
  have h4 := fun k => run_of_microStep
    (s := { adjustSidx c (clampPred (movePred c d w)) with todo := .clampSidx :: ms })
    (t := { stateClamp c (movePred c d w) with todo := ms }) k hinbox' rfl
  exact ⟨h1 0, (h1 1).trans (h2 0), (h1 2).trans ((h2 1).trans (h3 0)),
    (h1 3).trans ((h2 2).trans ((h3 1).trans (h4 0)))⟩

/-- What a started ENCS or DECS does first, and what the command leaves when it is run: one code and its step word fix
both (R68, R69, R71). -/
structure SampleCommand (i : Instr) (s s0 t : State) (c : Code) (step : Nat) : Prop where
  initd : s.initd = true
  word : stepRom s.sidx.toInt = some step
  inbox : s0.inbox = s.inbox
  first : ∃ ms, microStep s0 =
    .next { movePred c (codeDelta step c) { accept s with cmd := some i } with todo := clampMicros c ++ ms }
  pred : t.pred = (stateClamp c (movePred c (codeDelta step c) s)).pred
  sidx : t.sidx = (stateClamp c (movePred c (codeDelta step c) s)).sidx

theorem encs_sampleCommand {b : Byte} {s s0 t : State} (hstart : beginCommand (.encs b) s = .next s0)
    (hrun : execEncs b s = .next t) :
    ∃ (c : Code) (step : Nat), SampleCommand (.encs b) s s0 t c step ∧ t.res = some c.toNat := by
  obtain ⟨-, rfl⟩ := beginCommand_next hstart
  obtain ⟨⟨-, hi⟩, c, u, hu, rfl⟩ := execEncs_next.mp hrun
  obtain ⟨step, hstep, rfl, rfl, -⟩ := encStep_some hu
  rw [quantise_delta]
  refine ⟨_, step, ⟨hi, hstep, rfl, ⟨[.finish (.value (quantise s.pred.toInt step b).code.toNat)],
    microStep_cons (s := { accept s with cmd := some (.encs b) }) ?_⟩, rfl, rfl⟩, rfl⟩
  rw [← quantise_delta]
  exact congrArg (Option.map _) hstep

theorem decs_sampleCommand {c : Code} {s s0 t : State} (hstart : beginCommand (.decs c) s = .next s0)
    (hrun : decodeCommand c s = .next t) : ∃ step, SampleCommand (.decs c) s s0 t c step := by
  obtain ⟨-, rfl⟩ := beginCommand_next hstart
  obtain ⟨⟨-, hi⟩, y, u, hu, rfl⟩ := decodeCommand_next.mp hrun
  obtain ⟨step, hstep, -, rfl, -⟩ := decStep_some hu
  exact ⟨step, ⟨hi, hstep, rfl, ⟨_, microStep_cons (s := { accept s with cmd := some (.decs c) })
    (congrArg (Option.map _) hstep)⟩, rfl, rfl⟩⟩

/-- The values at the boundaries, where no register wraps: unclamped and clamped (R22, R71). -/
theorem sampleStep_values {s : State} {d : Nat} (c : Code) (hc : Committed s) (hd : d ≤ 589) :
    (movePred c d s).pred.toInt = moved s.pred.toInt c d ∧
    (clampPred (movePred c d s)).pred.toInt = clampP (moved s.pred.toInt c d) ∧
    (adjustSidx c s).sidx.toInt = s.sidx.toInt + idxRom c ∧
    (clampSidx (adjustSidx c s)).sidx.toInt = clampI (s.sidx.toInt + idxRom c) := by
  obtain ⟨⟨hp0, hp255⟩, hi0, hi48⟩ := hc
  have hmoved := moved_range (c := c) hp0 hp255 hd
  have hindex := idxRom_range c
  have hclampP := clampP_range (moved s.pred.toInt c d)
  have hclampI := clampI_range (s.sidx.toInt + idxRom c)
  have hpred : (movePred c d s).pred.toInt = moved s.pred.toInt c d := predReg_toInt (by omega) (by omega)
  have hsidx : (adjustSidx c s).sidx.toInt = s.sidx.toInt + idxRom c := sidxReg_toInt (by omega) (by omega)
  refine ⟨hpred, ?_, hsidx, ?_⟩
  · rw [clampPred_pred, hpred, predReg_toInt (by omega) (by omega)]
  · rw [clampSidx_sidx, hsidx, sidxReg_toInt (by omega) (by omega)]

/-- Settles O42: INIT writes PRED, then SIDX, with INITD as it was; ENCS and DECS make the four micro-steps of one
sample step, whose code fixes the values. -/
theorem microStepsOfSampleOperations : Obligations.MicroStepsOfSampleOperations := by
  intro s hinbox _
  refine ⟨fun b s0 hstart => ?_, fun i s0 t hc hi hstart hrun => ?_⟩
  · obtain ⟨-, rfl⟩ := beginCommand_next hstart
    have h1 := fun k => run_of_microStep (s := { accept s with cmd := some (.init b), todo := microProgram (.init b) })
      k hinbox rfl
    have h2 := fun k => run_of_microStep (s := setPred b.toNat { accept s with
      cmd := some (.init b), todo := [.zeroSidx, .setInitd, .finish (.value 0)] }) k hinbox rfl
    exact ⟨_, _, h1 0, predReg_ofByte b, rfl, (h1 1).trans (h2 0), predReg_ofByte b, rfl,
      fun hi => ⟨readsShowRegisters_of_initd hi, readsShowRegisters_of_initd hi⟩,
      fun hi => ⟨readsAreRefused_of_initd hi, readsAreRefused_of_initd hi⟩⟩
  · obtain ⟨c, step, hcommand, hcode⟩ : ∃ c step, SampleCommand i s s0 t c step ∧
        (∀ c', i = .decs c' → c = c') ∧ (∀ b, i = .encs b → t.res = some c.toNat) := by
      obtain ⟨b, rfl⟩ | ⟨c, rfl⟩ := hi
      · obtain ⟨c, step, hcommand, hres⟩ := encs_sampleCommand hstart hrun
        exact ⟨c, step, hcommand, nofun, fun _ _ => hres⟩
      · obtain ⟨step, hcommand⟩ := decs_sampleCommand hstart hrun
        exact ⟨c, step, hcommand, fun _ h => Instr.decs.inj h, nofun⟩
    obtain ⟨hinitd, hword, hinbox0, ⟨ms, hfirst⟩, hpred, hsidx⟩ := hcommand
    obtain ⟨-, -, -, hle⟩ := stepRom_eq_some hword
    obtain ⟨hp1, hp2, hi3, hi4⟩ := sampleStep_values c hc (codeDelta_le step c hle)
    obtain ⟨hrun1, hrun2, hrun3, hrun4⟩ := run_sampleStep (w := { accept s with cmd := some i })
      (hinbox0.trans hinbox) hinbox hfirst
    refine ⟨moved s.pred.toInt c (codeDelta step c), idxRom c, _, _, _, _, hrun1, hp1, rfl, hrun2, hp2, rfl, hrun3, hp2,
      hi3, hrun4, hp2, hi4, hpred, hsidx, readsShowRegisters_of_initd hinitd, readsShowRegisters_of_initd hinitd,
      readsShowRegisters_of_initd hinitd, readsShowRegisters_of_initd hinitd, c, rfl, ⟨step, hword, ?_⟩, hcode⟩
    rw [← codeDelta_eq_deltaOf]
    rfl

end Sys2Proof.Machine
end
